-- ==== Sys2Proof/Word.lean ====
section
/-!
DEFINITION. The two word widths of the part: one byte of table memory or of the register window, and the
16-bit value that two bytes make, the byte at the lower address or offset being the less significant
(00_scope.md, Conventions, "Byte order").
-/

namespace Sys2Proof

/-- One byte of table memory, of the register window or of the service bus. -/
abbrev Byte := BitVec 8

/-- A 16-bit register or record field. -/
abbrev Half := BitVec 16

end Sys2Proof
end

