-- ==== Sys2Proof/Syntax.lean ====
section
/-!
DEFINITION. The commands the block takes: one constructor of `Instr` for each row of
spec/opcode_table.json, with the operands the row's rule gives it from outside the part. A value that the
part itself holds when the row is taken (CMD_OPERAND, the staging area, a write hold, TM_PTR) is no operand:
the meaning reads it from the state.
-/

namespace Sys2Proof

/-- The 16-bit registers of the window that have a read latch (R176, R177). -/
inductive Reg16 where
  | id | tmPtr | guardAddr | noticeCause | intCause | intEnable | tickPeriod | wakeUs | lineEdge
  deriving DecidableEq, Repr

/-- The 16-bit registers of the window that the host may write and that have a write hold (R178). -/
inductive WReg16 where
  | tmPtr | intCause | intEnable | tickPeriod | wakeUs | lineEdge
  deriving DecidableEq, Repr

/-- One host access to the 64-byte window: a read, or a write of one byte (R176). -/
inductive Access where
  | read (offset : BitVec 6)
  | write (offset : BitVec 6) (value : Byte)
  deriving DecidableEq, Repr

/-- What the part samples on SD0 ... SD7 and SPAR in one bus cycle (R129). -/
structure Sample where
  sd : Byte
  spar : Bool
  deriving DecidableEq, Repr

/-- The commands of the block, row by row of spec/opcode_table.json. -/
inductive Instr where
  /-- FULL_RESET (R67): RESET# goes low, or power-on. -/
  | fullReset
  /-- RESET_RELEASE (R67): RESET# returns high and the clear begins. -/
  | resetRelease
  /-- CLEAR_END (R69): the clear ends; `lines` holds the levels of T0 ... T7 as they then stand (R74). -/
  | clearEnd (lines : Byte)
  /-- ACCESS_DURING_CLEAR (R68): a host access while RESET# is low or the clear is in progress. -/
  | accessDuringClear (access : Access)
  /-- RESET_BROADCAST (R149): the RESET broadcast starts. -/
  | resetBroadcast
  /-- RESET_BROADCAST_END (R147): the RESET broadcast ends. -/
  | resetBroadcastEnd
  /-- MICROSECOND_MARK (R3): the prescaler marks one microsecond. -/
  | microsecondMark
  /-- TICK (R15): the upkeep engine takes one tick of the tick counter. -/
  | tick
  /-- EXPIRY (R7): the timer of duty `n` is decremented to 0. -/
  | expiry (n : Fin 32)
  /-- TRIGGER_LINE_EDGE (R74, R75): the filtered level of line `k` becomes `level`. -/
  | triggerLineEdge (k : Fin 8) (level : Bool)
  /-- ARM_DUTY (R23): CMD_CODE is written with 0x01. -/
  | armDuty
  /-- DISARM_DUTY (R25): CMD_CODE is written with 0x02. -/
  | disarmDuty
  /-- RUN_CUT (R26): the run with DISARM_PENDING is cut at the end of its frame. -/
  | runCut
  /-- START_CHANNEL (R80): CMD_CODE is written with 0x10. -/
  | startChannel
  /-- STOP_CHANNEL (R96): CMD_CODE is written with 0x11. -/
  | stopChannel
  /-- TRIGGER_CHANNEL (R86): CMD_CODE is written with 0x12. -/
  | triggerChannel
  /-- TARGET_ONLINE (R155): CMD_CODE is written with 0x20. -/
  | targetOnline
  /-- TARGET_OFFLINE (R156): CMD_CODE is written with 0x21. -/
  | targetOffline
  /-- SUBMIT (R104): CMD_CODE is written with 0x30. -/
  | submit
  /-- FLUSH_HOST (R112): CMD_CODE is written with 0x31. -/
  | flushHost
  /-- QUIET_ENTER (R164): CMD_CODE is written with 0x40. -/
  | quietEnter
  /-- QUIET_EXIT (R170): CMD_CODE is written with 0x41. -/
  | quietExit
  /-- SOFT_RESET (R183): CMD_CODE is written with 0x7F. -/
  | softReset
  /-- SOFT_RESET_EFFECTS (R183): the effects of a deferred SOFT_RESET are applied. -/
  | softResetEffects
  /-- BAD_COMMAND (R180): CMD_CODE is written with a code that names no command. -/
  | badCommand (code : Byte)
  /-- COLLISION (R181): CMD_CODE is written while the command unit is PENDING. -/
  | collision (code : Byte)
  /-- TM_PTR_WRITE (R57): a write of TM_PTR's high byte. -/
  | tmPtrWrite (high : Byte)
  /-- TM_DATA_READ (R58). -/
  | tmDataRead
  /-- TM_DATA_WRITE (R59). -/
  | tmDataWrite (value : Byte)
  /-- NOTICE_MEMBER_READ (R185). -/
  | noticeMemberRead
  /-- CPL_POP (R111): a write of any value. -/
  | cplPop (value : Byte)
  /-- INT_CAUSE_WRITE (R186): a write of INT_CAUSE's high byte. -/
  | intCauseWrite (high : Byte)
  /-- INT_ENABLE_WRITE (R187): a write of INT_ENABLE's high byte. -/
  | intEnableWrite (high : Byte)
  /-- CLOCK_MHZ_WRITE (R3). -/
  | clockMhzWrite (value : Byte)
  /-- TICK_PERIOD_WRITE (R4): a write of TICK_PERIOD's high byte. -/
  | tickPeriodWrite (high : Byte)
  /-- WAKE_US_WRITE (R163): a write of WAKE_US's high byte. -/
  | wakeUsWrite (high : Byte)
  /-- BUS_DIV_WRITE (R130). -/
  | busDivWrite (value : Byte)
  /-- PULLIN_WRITE (R52). -/
  | pullinWrite (value : Byte)
  /-- LINE_EDGE_WRITE (R73): a write of LINE_EDGE's high byte. -/
  | lineEdgeWrite (high : Byte)
  /-- LOW_BYTE_WRITE (R178). -/
  | lowByteWrite (reg : WReg16) (value : Byte)
  /-- LOW_BYTE_READ (R177). -/
  | lowByteRead (reg : Reg16)
  /-- REGISTER_WRITE (R176): a write of an offset that has no row of its own. -/
  | registerWrite (offset : BitVec 6) (value : Byte)
  /-- GAP_END (R119): the idle bus cycle after a grant or broadcast ends. -/
  | gapEnd
  /-- INTER_FRAME_GAP_END (R142): the idle gap between two frames of one grant ends. -/
  | interFrameGapEnd
  /-- READY_TIMEOUT (R140): a HANDSHAKE data slot exceeds READY_LIMIT wait cycles. -/
  | readyTimeout
  /-- ATTEMPT_END (R141): the attempt reaches its status cycle. `status` is what the part samples there and
  `data` what it sampled in the data slots of a READ attempt, first byte first. -/
  | attemptEnd (status : Sample) (data : List Sample)
  /-- RETRY_GAP_END (R141): the retry gap ends and the next attempt starts. -/
  | retryGapEnd
  /-- QUIET_BROADCAST_END (R166). -/
  | quietBroadcastEnd
  /-- WAKE_BROADCAST_END (R168). -/
  | wakeBroadcastEnd
  /-- WAKE_WAIT_END (R168). -/
  | wakeWaitEnd
  /-- HIGH_BYTE_READ (R177). -/
  | highByteRead (reg : Reg16)
  deriving DecidableEq, Repr

end Sys2Proof
end

