-- ==== Sys2Proof/Decode.lean ====
section
/-!
DEFINITION. The command that a word spells by the bits of spec/opcode_table.json. No row of this
hardware's table gives bits (every row's "fields" is empty and none has "fixed"), so no word spells a command.
-/

namespace Sys2Proof

/-- The command a word of `nbits` bits spells by the table's bits: none, since no row gives bits. -/
def decodeTableWord (_nbits _w : Nat) : Option Instr := none

end Sys2Proof
end

