-- ==== Sys2Proof/Config.lean ====
section
/-!
DEFINITION. What is fixed for the part: the map of table memory (R56), the identity of the part (R179), and
the free values that the manual leaves open.
-/

namespace Sys2Proof

/-- First address of the descriptor slots (R56). -/
def Config.descriptorBase : Nat := 0x0600

/-- First address of the transaction records (R56). -/
def Config.transactionBase : Nat := 0x0900

/-- First address of the data area (R56). -/
def Config.dataBase : Nat := 0x0D00

/-- The number of bytes of table memory (R56); 0x2000 is the first address beyond it. -/
def Config.tableSize : Nat := 0x2000

/-- The value ID reads: 0x4A at its low byte and 0x63 at its high byte (R179). -/
def Config.idValue : Half := 0x634A

/-- FREE VALUE (R65): how many data bytes of the WRITE attempt on the bus have been driven at the `k`-th
moment at which that matters. The table of events has no row for a data slot, so the manual leaves open
where within the attempt a host write falls; no proof can see this value
(DESIGN CHOICE for the form: log entry 10). -/
opaque Config.bytesDriven : Nat → Nat

/-- FREE VALUE (R38, R106, R108, R120, R128, R130): whether a TARGET_OFFLINE, a SOFT_RESET or a write of BUS_DIV taken
next behind a grant decision falls between the decision and the first target check of the granted work, with which
its first frame starts, at the `k`-th moment at which that matters. The table of events has no row for the check and the rules give an outcome to either order, so no
proof can see this value (DESIGN CHOICE for the form: log entry 22). -/
opaque Config.commandBeforeCheck : Nat → Bool

/-- FREE VALUE (R75): the place of each channel among the arrivals of one edge, at the `k`-th moment at which that matters.
Each channel that listens takes the arrival as an event of its own and the manual does not order these events, so no
proof can see this value (DESIGN CHOICE for the form: log entry 19). -/
opaque Config.arrivalPlace : Nat → Fin 16 → Nat

/-- FREE VALUE (R147): the sequence bit that the conforming target of a number holds after a RESET broadcast,
given the one it held before: it keeps or resets it as it likes (DESIGN CHOICE for the form: log entry 18). -/
opaque Config.lastAfterReset : Nat → Bool → Bool

end Sys2Proof
end

