-- ==== Sys2Proof/Machine/State.lean ====
section
/-!
DEFINITION. The state of the part: every register, record, queue, counter, latch and mode the manual names
(INVENTORY.md, heading State), the queue of commands that wait, and the state right after reset. Table
memory has one home for every byte: the target, channel and duty records are records, every other byte of
the map of R56 (descriptor slots, transaction records, data area) is a cell of `mem`.
-/

namespace Sys2Proof.Machine

open Sys2Proof

/-! ## Names of the manual's enumerations -/

/-- R67 to R69: RESET# low, the table-memory clear in progress, or the part running. -/
inductive PartPhase where
  | inReset | clearing | running
  deriving DecidableEq, Repr

/-- The condition codes of R70, code 0 first; `none` is also the completion STATUS OK. -/
inductive Condition where
  | none | nak | noResponse | readyTimeout | parity | mismatch | targetDown | overrun | memoryRange
  | badDescriptor | flushed
  deriving DecidableEq, Repr

/-- The states of a target (R150). -/
inductive TargetState where
  | offline | online | quarantined
  deriving DecidableEq, Repr

/-- The states of a channel (R76). -/
inductive ChannelState where
  | idle | waiting | busy | done | halted
  deriving DecidableEq, Repr

/-- The states of a duty (R2). -/
inductive DutyState where
  | idle | armed | due | running | faulted
  deriving DecidableEq, Repr

/-- The bus states of the quiet controller (R162). -/
inductive BusState where
  | active | draining | quiet | waking | excursion
  deriving DecidableEq, Repr

/-- The purpose of the quiet controller (R162). -/
inductive Purpose where
  | none | exit | excursion
  deriving DecidableEq, Repr

/-- The command unit's state (R180). -/
inductive UnitState where
  | ready | pending
  deriving DecidableEq, Repr

/-- The kinds of a frame addressed to a target (R71). -/
inductive FrameKind where
  | write | read | sync
  deriving DecidableEq, Repr

/-- The broadcasts (R147). -/
inductive Broadcast where
  | quiet | wake | reset
  deriving DecidableEq, Repr

/-- The outcome of an attempt or of a frame (R72, R141). -/
inductive FrameOutcome where
  | ok | nak | noResponse | readyTimeout | parity
  deriving DecidableEq, Repr

/-! ## Records of table memory -/

/-- Target record (R70, "Target record"). The notice cause QUARANTINED is the one bit of NOTICE_CAUSES. -/
structure TargetRec where
  profile : Byte
  settleCycles : Byte
  pace : Byte
  readyLimit : Byte
  retryLimit : Byte
  quarantineThreshold : Byte
  state : TargetState
  consecFails : Byte
  lastFailure : Condition
  seq : Bool
  inSync : Bool
  offlinePending : Bool
  framesCompleted : Half
  noticeQuarantined : Bool
  deriving DecidableEq, Repr

/-- Channel record (R70, "Channel record"). -/
structure ChannelRec where
  triggerLine : Byte
  firstSlot : Byte
  state : ChannelState
  currentSlot : Byte
  remainingCount : Half
  currentOffset : Byte
  pending : Byte
  currentAddress : Half
  stopPending : Bool
  haltCause : Condition
  unitsDone : Half
  noticeEnd : Bool
  noticeChain : Bool
  noticeHalt : Bool
  deriving DecidableEq, Repr

/-- Duty record (R70, "Duty record"). -/
structure DutyRec where
  target : Byte
  postponeLimit : Byte
  interval : Half
  phase : Half
  pullinLimit : Byte
  listFirst : Byte
  listLength : Byte
  faultThreshold : Byte
  quietPolicy : Byte
  notifyOnRun : Byte
  state : DutyState
  balance : Int
  remaining : Half
  consecFails : Byte
  lateCount : Byte
  held : Bool
  stale : Bool
  disarmPending : Bool
  lastFailure : Condition
  failPosition : Byte
  completedRuns : Half
  noticeRunDone : Bool
  noticeRunFailed : Bool
  noticeLate : Bool
  noticeFault : Bool
  deriving DecidableEq, Repr

/-! ## Host requests -/

/-- A request accepted by SUBMIT (R104): the copy of the staging record, with every field in its range. -/
structure Request where
  tag : Byte
  target : Fin 16
  isWrite : Bool
  offset : Byte
  length : Nat
  address : Nat
  forceSync : Bool
  deriving DecidableEq, Repr

/-- A completion record (R70, "Completion record"). -/
structure Completion where
  tag : Byte
  status : Condition
  bytes : Byte
  attempts : Byte
  deriving DecidableEq, Repr

/-! ## Arbiter and bus engine -/

/-- The grant in force and how far its work has come: a duty and its list position 1 ... 8 (R37), a channel
and whether its data frame has ended OK so that the acknowledge frame comes next (R92), or the in-flight
host request (R107). -/
inductive Grant where
  | duty (n : Fin 32) (position : Nat)
  | channel (c : Fin 16) (acknowledge : Bool)
  | host
  deriving DecidableEq, Repr

/-- Where the data bytes of a frame come from, or where those of a READ go (R131): no data bytes, DATA of a
transaction record, the data area from an address on, or a descriptor's ACK_VALUE. -/
inductive DataPath where
  | none
  | record (i : Nat)
  | area (address : Nat)
  | value (v : Byte)
  deriving DecidableEq, Repr

/-- The frame a requester hands to the bus engine (R131). -/
structure Frame where
  kind : FrameKind
  target : Fin 16
  offset : Byte
  length : Nat
  path : DataPath
  deriving DecidableEq, Repr

/-- One attempt of a frame: its number, the target's fields read at its start (R131), and for a WRITE the
data bytes it drives and how many of them are known to have been driven (R65). -/
structure Attempt where
  frame : Frame
  count : Nat
  profile : Byte
  settleCycles : Byte
  pace : Byte
  readyLimit : Byte
  retryLimit : Byte
  sent : List Byte
  driven : Nat
  deriving DecidableEq, Repr

/-- The bus engine (7.2) with the idle time it counts: off during reset and clear (R129), the idle cycle
before the RESET broadcast (R149), IDLE with the bus free, IDLE in the arbiter's gap (R119), IDLE after a grant
decision with the granted work's first target check still to come (R38, R90, R108, R120; log entry 22), IDLE
between two frames of one grant for a number of cycles (R142), ATTEMPT, RETRY_GAP, or BROADCAST. -/
inductive BusEngine where
  | off
  | resetWait
  | free
  | gap
  | granted
  | interGap (cycles : Nat)
  | attempt (a : Attempt)
  | retryGap (a : Attempt)
  | broadcast (b : Broadcast)
  deriving DecidableEq, Repr

/-! ## The state -/

/-- The part. Fields marked "model's own" are not registers of the manual. -/
structure State where
  -- reset and host port
  /-- RESET# low, clear in progress, or running (R67 to R69). -/
  phase : PartPhase
  /-- The byte the last host read drove onto HD0 ... HD7 (model's own output latch). -/
  hostData : Byte
  -- host window
  /-- The read latch of each 16-bit register, empty or one byte (R177). -/
  readLatch : Vector (Option Byte) 9
  /-- The write hold of each writable 16-bit register, empty or one byte (R178). -/
  writeHold : Vector (Option Byte) 6
  /-- The command unit, READY or PENDING (R180). -/
  unit : UnitState
  /-- CMD_OPERAND (R180). -/
  cmdOperand : Byte
  /-- CMD_CODE (R180). -/
  cmdCode : Byte
  /-- CMD_RESULT (R180). -/
  cmdResult : Byte
  /-- NOTICE_CAUSE, what the last NOTICE_MEMBER read loaded (R185). -/
  noticeCause : Half
  /-- Sticky interrupt cause COMMAND_DONE (R186). -/
  commandDone : Bool
  /-- Sticky interrupt cause BUS_STATE (R186). -/
  busStateCause : Bool
  /-- Sticky interrupt cause GUARD (R63, R186). -/
  guardCause : Bool
  /-- Sticky interrupt cause COLLISION (R181, R186). -/
  collisionCause : Bool
  /-- Sticky interrupt cause READY (R69, R186). -/
  readyCause : Bool
  /-- INT_ENABLE (R187). -/
  intEnable : Half
  -- table memory
  /-- TM_PTR (R57). -/
  tmPtr : BitVec 13
  /-- GUARD_ADDR (R63). -/
  guardAddr : BitVec 13
  /-- The 16 target records (R56, R70). -/
  targets : Vector TargetRec 16
  /-- The 16 channel records (R56, R70). -/
  channels : Vector ChannelRec 16
  /-- The 32 duty records (R56, R70). -/
  duties : Vector DutyRec 32
  /-- Descriptor slots, transaction records and data area, 0x0600 ... 0x1FFF, in canonical form. -/
  mem : List Host.Cell
  -- timebase
  /-- CLOCK_MHZ (R3). -/
  clockMhz : Byte
  /-- Chip clocks counted in the microsecond in progress (R3). -/
  prescaler : Nat
  /-- The CLOCK_MHZ in force for the microsecond in progress (R3). -/
  prescalerDiv : Byte
  /-- TICK_PERIOD (R4). -/
  tickPeriod : Half
  /-- The TICK_PERIOD in force for the period in progress (R4). -/
  periodInForce : Half
  /-- Microsecond marks counted in the period in progress (R4). -/
  tickCount : Nat
  /-- Ticks issued to the upkeep engine and not yet taken by it (model's own). -/
  ticksDue : Nat
  -- upkeep engine
  /-- The due queue, head first (R30, R31). -/
  dueQueue : List (Fin 32)
  /-- PULLIN (R52). -/
  pullin : Bool
  -- trigger unit
  /-- LINE_EDGE (R73). -/
  lineEdge : Half
  /-- LINE_LEVEL, the filtered levels of T0 ... T7 (R74). -/
  lineLevel : Byte
  /-- The channel round-robin pointer (R87, R123). -/
  channelPointer : Fin 16
  -- pass-through unit
  /-- The staging area (R102). -/
  staging : Vector Byte 8
  /-- The request queue, head first (R105). -/
  requests : List Request
  /-- The request in flight (R107). -/
  inFlight : Option Request
  /-- The completion queue, head first (R110). -/
  completions : List Completion
  /-- The completion record with which an in-flight request ends at a deferred SOFT_RESET, once the frame the
  soft reset waits for has ended (R115, step 1; model's own). -/
  softEnd : Option Completion
  -- arbiter
  /-- The grant in force (R116). -/
  grant : Option Grant
  /-- The host wait count (R124). -/
  hostWait : Nat
  -- bus engine
  /-- The bus engine with the attempt on the bus and its count (7.2, R131). -/
  engine : BusEngine
  /-- BUS_DIV (R130). -/
  busDiv : Byte
  /-- The BUS_DIV latched at the start of the last frame or broadcast (R130). -/
  busDivInForce : Byte
  -- quiet controller
  /-- The bus state (R162). -/
  busState : BusState
  /-- The purpose of the quiet controller (R162). -/
  purpose : Purpose
  /-- The wake timer (R162, R168). -/
  wakeTimer : Nat
  /-- WAKE_US as latched at the end of the last WAKE broadcast (R163, R168). -/
  wakeLatched : Half
  /-- The wait of WAKING is in progress (R168). -/
  wakeWaiting : Bool
  /-- WAKE_US (R163). -/
  wakeUs : Half
  -- model's own
  /-- How many free values have been used (Config.bytesDriven, Config.commandBeforeCheck). -/
  freeCount : Nat
  /-- The commands that wait, first in, first out. -/
  pending : List Instr
  deriving DecidableEq, Repr

/-- Why the part would stop with a fault. The manual gives none: every access and every event ends in a next
state, so the type has no constructor (NOTES.md, Stops; log entry 3). -/
inductive Fault where
  deriving DecidableEq, Repr

/-- Why a command would have no meaning. -/
inductive Refusal where
  /-- Raised by an arm of `exec` whose command has no meaning yet, and by nothing else; safe. No arm raises it. -/
  | notModelled (mnemonic : String)
  deriving DecidableEq, Repr

/-! ## Reset -/

/-- A target record of zeros (R69, R160): OFFLINE, S 0, sync-needed set. -/
def TargetRec.zero : TargetRec where
  profile := 0
  settleCycles := 0
  pace := 0
  readyLimit := 0
  retryLimit := 0
  quarantineThreshold := 0
  state := .offline
  consecFails := 0
  lastFailure := .none
  seq := false
  inSync := false
  offlinePending := false
  framesCompleted := 0
  noticeQuarantined := false

/-- A channel record of zeros (R69, R100). -/
def ChannelRec.zero : ChannelRec where
  triggerLine := 0
  firstSlot := 0
  state := .idle
  currentSlot := 0
  remainingCount := 0
  currentOffset := 0
  pending := 0
  currentAddress := 0
  stopPending := false
  haltCause := .none
  unitsDone := 0
  noticeEnd := false
  noticeChain := false
  noticeHalt := false

/-- A duty record of zeros (R28, R69). -/
def DutyRec.zero : DutyRec where
  target := 0
  postponeLimit := 0
  interval := 0
  phase := 0
  pullinLimit := 0
  listFirst := 0
  listLength := 0
  faultThreshold := 0
  quietPolicy := 0
  notifyOnRun := 0
  state := .idle
  balance := 0
  remaining := 0
  consecFails := 0
  lateCount := 0
  held := false
  stale := false
  disarmPending := false
  lastFailure := .none
  failPosition := 0
  completedRuns := 0
  noticeRunDone := false
  noticeRunFailed := false
  noticeLate := false
  noticeFault := false

/-- The part right after a full reset, with RESET# still low: the next events are RESET_RELEASE and
CLEAR_END (R67, R69). Every value is the one the manual gives for a full reset (R5, R57, R63, R73, R87, R102,
R115, R127, R130, R162, R163, R188); LINE_LEVEL, the latched WAKE_US and HD0 ... HD7 are DESIGN CHOICE (log
entry 2). Table memory is written with zeros by the clear and lists nothing (R67). -/
def State.reset : State where
  phase := .inReset
  hostData := 0
  readLatch := Vector.replicate 9 none
  writeHold := Vector.replicate 6 none
  unit := .ready
  cmdOperand := 0
  cmdCode := 0
  cmdResult := 0
  noticeCause := 0
  commandDone := false
  busStateCause := false
  guardCause := false
  collisionCause := false
  readyCause := false
  intEnable := 0
  tmPtr := 0
  guardAddr := 0
  targets := Vector.replicate 16 TargetRec.zero
  channels := Vector.replicate 16 ChannelRec.zero
  duties := Vector.replicate 32 DutyRec.zero
  mem := []
  clockMhz := 16
  prescaler := 0
  prescalerDiv := 16
  tickPeriod := 1000
  periodInForce := 1000
  tickCount := 0
  ticksDue := 0
  dueQueue := []
  pullin := true
  lineEdge := 0
  lineLevel := 0
  channelPointer := 15
  staging := Vector.replicate 8 0
  requests := []
  inFlight := none
  completions := []
  softEnd := none
  grant := none
  hostWait := 0
  engine := .off
  busDiv := 8
  busDivInForce := 8
  busState := .active
  purpose := .none
  wakeTimer := 0
  wakeLatched := 200
  wakeWaiting := false
  wakeUs := 200
  freeCount := 0
  pending := []

end Sys2Proof.Machine
end

