-- ==== Sys2Proof/Machine/Ops.lean ====
section
/-!
DEFINITION. The named operations every block uses: table memory read and written at one address, the
three record files read and written at one index, the indices in ascending order, and the small facts
about targets, grants and the bus that several blocks ask for.
-/

namespace Sys2Proof.Machine

open Sys2Proof

/-! ## Memory: descriptor slots, transaction records and data area -/

/-- The byte at address `a`; an address the list does not hold reads 0, as after the clear (R67). -/
def memRead : List Host.Cell → Nat → Byte
  | [], _ => 0
  | (b, v) :: m, a => if b = a then v else memRead m a

/-- Writes `v` at address `a`, keeping the addresses strictly rising and listing no 0. -/
def memWrite : List Host.Cell → Nat → Byte → List Host.Cell
  | [], a, v => if v = 0 then [] else [(a, v)]
  | (b, w) :: m, a, v =>
    if a < b then (if v = 0 then (b, w) :: m else (a, v) :: (b, w) :: m)
    else if a = b then (if v = 0 then m else (a, v) :: m)
    else (b, w) :: memWrite m a v

/-- Writes the bytes `bs` at `a`, `a + 1`, ... -/
def memWriteList (m : List Host.Cell) (a : Nat) : List Byte → List Host.Cell
  | [] => m
  | b :: bs => memWriteList (memWrite m a b) (a + 1) bs

/-- The `n` bytes at `a`, `a + 1`, ... -/
def memReadList (m : List Host.Cell) (a : Nat) : Nat → List Byte
  | 0 => []
  | n + 1 => memRead m a :: memReadList m (a + 1) n

/-- The canonical form of memory: addresses strictly rising above `lo`, below `hi`, no entry 0. -/
def memWfFrom (hi : Nat) : Nat → List Host.Cell → Bool
  | _, [] => true
  | lo, (a, v) :: m => decide (lo ≤ a) && decide (a < hi) && decide (v ≠ 0) && memWfFrom hi (a + 1) m

/-- `mem` is in its one form: addresses in 0x0600 ... 0x1FFF strictly rising, no entry equal to 0. -/
def memWf (m : List Host.Cell) : Bool := memWfFrom Config.tableSize Config.descriptorBase m

/-- The byte of `mem` at `a`. -/
def State.memByte (s : State) (a : Nat) : Byte := memRead s.mem a

/-- The little-endian 16-bit value at `a` (00_scope.md, "Byte order"). -/
def State.memHalf (s : State) (a : Nat) : Half := s.memByte (a + 1) ++ s.memByte a

/-- Writes bytes into `mem` from `a` on. -/
def State.writeMem (s : State) (a : Nat) (bs : List Byte) : State :=
  { s with mem := memWriteList s.mem a bs }

/-! ## Record files -/

/-- Duties 0 ... 31 in ascending index. -/
def allDuties : List (Fin 32) :=
  [0, 1, 2, 3, 4, 5, 6, 7, 8, 9, 10, 11, 12, 13, 14, 15, 16, 17, 18, 19, 20, 21, 22, 23, 24, 25, 26, 27, 28, 29,
    30, 31]

/-- Channels, or targets, 0 ... 15 in ascending index. -/
def allSixteen : List (Fin 16) := [0, 1, 2, 3, 4, 5, 6, 7, 8, 9, 10, 11, 12, 13, 14, 15]

def State.duty (s : State) (n : Fin 32) : DutyRec := s.duties[n]
def State.channel (s : State) (c : Fin 16) : ChannelRec := s.channels[c]
def State.target (s : State) (t : Fin 16) : TargetRec := s.targets[t]

def State.setDuty (s : State) (n : Fin 32) (d : DutyRec) : State := { s with duties := s.duties.set n d }
def State.setChannel (s : State) (c : Fin 16) (r : ChannelRec) : State := { s with channels := s.channels.set c r }
def State.setTarget (s : State) (t : Fin 16) (r : TargetRec) : State := { s with targets := s.targets.set t r }

/-- Applies `f` to every duty record, in ascending index. -/
def State.mapDuties (s : State) (f : DutyRec → DutyRec) : State :=
  allDuties.foldl (fun s n => s.setDuty n (f (s.duty n))) s

/-- Applies `f` to every channel record, in ascending index. -/
def State.mapChannels (s : State) (f : ChannelRec → ChannelRec) : State :=
  allSixteen.foldl (fun s c => s.setChannel c (f (s.channel c))) s

/-- Applies `f` to every target record, in ascending index. -/
def State.mapTargets (s : State) (f : TargetRec → TargetRec) : State :=
  allSixteen.foldl (fun s t => s.setTarget t (f (s.target t))) s

/-- A register index as a duty number, a channel or target number: the low bits name the record. -/
def dutyIndex (b : Byte) : Fin 32 := ⟨b.toNat % 32, Nat.mod_lt _ (by decide)⟩
def sixteenIndex (b : Byte) : Fin 16 := ⟨b.toNat % 16, Nat.mod_lt _ (by decide)⟩

/-! ## What blocks ask about each other -/

/-- The target is ONLINE (R150). -/
def State.online (s : State) (t : Fin 16) : Bool := (s.target t).state == .online

/-- The target every transaction of duty `n` addresses (R24 keeps the byte in 0 ... 15 while it is used). -/
def State.dutyTarget (s : State) (n : Fin 32) : Fin 16 := sixteenIndex (s.duty n).target

/-- A SOFT_RESET has been taken and its effects are not yet applied (R128, R183). -/
def State.softResetPending (s : State) : Bool := s.unit == .pending && s.cmdCode == 0x7F

/-- A WRITE, READ or SYNC frame is on the bus: from its first attempt to its outcome, retry gaps included (R131). -/
def State.frameOnBus (s : State) : Option Frame :=
  match s.engine with
  | .attempt a => some a.frame
  | .retryGap a => some a.frame
  | _ => none

/-- A broadcast is on the bus (R147). -/
def State.broadcastOnBus (s : State) : Option Broadcast :=
  match s.engine with
  | .broadcast b => some b
  | _ => none

/-- The bus is free: no grant in force, no broadcast, and the gap has passed (R119). -/
def State.busFree (s : State) : Bool := s.engine == .free && s.grant == none

/-- The grant ends and the arbiter's gap begins (R117, R119). -/
def State.endGrant (s : State) : State := { s with grant := none, engine := .gap }

/-- A deferred command completes with result OK (R182). -/
def State.completeCommand (s : State) : State :=
  { s with unit := .ready, cmdResult := 0, commandDone := true }

/-- An event of the part that cannot come in the state it is sent in: the part takes no such step, and nothing
changes (log entry 3). -/
def noEvent (s : State) : Host.Outcome State Fault Refusal := .next s

end Sys2Proof.Machine
end

