-- ==== Sys2Proof/Machine/Operands.lean ====
section
/-!
DEFINITION. What crosses the service bus: parity (R71), the three header bytes (R71), the decoding of the
status byte (R72) and of a READ attempt's data samples (R134, R138), and the condition codes (R70).
-/

namespace Sys2Proof.Machine

open Sys2Proof

/-- The number of ones among the low `k` bits of `b`. -/
def onesBelow (b : Byte) : Nat → Nat
  | 0 => 0
  | k + 1 => (if b.getLsbD k then 1 else 0) + onesBelow b k

/-- SD0 ... SD7 and SPAR together hold an odd number of ones (R71). -/
def sampleOdd (x : Sample) : Bool := (onesBelow x.sd 8 + (if x.spar then 1 else 0)) % 2 == 1

/-- What the part drives for byte `b`: SPAR makes the parity odd (R71, R129). -/
def driven (b : Byte) : Sample := ⟨b, onesBelow b 8 % 2 == 0⟩

/-- The idle bus, every line pulled high (R72). -/
def idleSample : Sample := ⟨0xFF, true⟩

/-- The kind code in the high nibble of header byte 0 (R71). -/
def FrameKind.code : FrameKind → Byte
  | .write => 0x1
  | .read => 0x2
  | .sync => 0x3

/-- The kind code of a broadcast (R71). -/
def Broadcast.code : Broadcast → Byte
  | .quiet => 0x8
  | .wake => 0x9
  | .reset => 0xA

/-- The SEQ bit a frame carries, for a target whose S is `seq` (R71). -/
def FrameKind.seqBit (k : FrameKind) (seq : Bool) : Bool :=
  match k with
  | .write => seq
  | .read => false
  | .sync => !seq

/-- The three header bytes of a frame to a target whose S is `seq` (R71). -/
def Frame.header (f : Frame) (seq : Bool) : List Byte :=
  [(f.kind.code <<< 4) ||| BitVec.ofNat 8 f.target.val,
    f.offset,
    BitVec.ofNat 8 (f.length - 1) ||| (if f.kind.seqBit seq then 0x10 else 0)]

/-- The three header bytes of a broadcast (R71). -/
def Broadcast.header (b : Broadcast) : List Byte := [b.code <<< 4, 0, 0]

/-- The status byte decoded by value and parity (R72). -/
def decodeStatus (x : Sample) : FrameOutcome :=
  if sampleOdd x then
    if x.sd = 0x5A then .ok
    else if x.sd = 0x3C then .nak
    else if x.sd = 0x66 then .parity
    else .noResponse
  else .parity

/-- The data samples of a READ attempt's slots: one a slot, a slot nobody drove reading the idle bus (R138). -/
def slotSamples (n : Nat) (data : List Sample) : List Sample :=
  (data ++ List.replicate n idleSample).take n

/-- The outcome of an attempt that reached its status cycle: PARITY also when a READ data byte was sampled
with even parity (R72, R141). -/
def attemptOutcome (f : Frame) (status : Sample) (data : List Sample) : FrameOutcome :=
  if f.kind = .read ∧ (slotSamples f.length data).any (fun x => !sampleOdd x) then .parity else decodeStatus status

/-- NO_RESPONSE, READY_TIMEOUT and PARITY are retried (R141). -/
def FrameOutcome.retried : FrameOutcome → Bool
  | .ok => false
  | .nak => false
  | .noResponse => true
  | .readyTimeout => true
  | .parity => true

/-- The condition code that a frame outcome has in a cause field or in a completion STATUS (R70). -/
def FrameOutcome.condition : FrameOutcome → Condition
  | .ok => .none
  | .nak => .nak
  | .noResponse => .noResponse
  | .readyTimeout => .readyTimeout
  | .parity => .parity

/-- The condition codes of R70. -/
def Condition.code : Condition → Byte
  | .none => 0
  | .nak => 1
  | .noResponse => 2
  | .readyTimeout => 3
  | .parity => 4
  | .mismatch => 5
  | .targetDown => 6
  | .overrun => 7
  | .memoryRange => 8
  | .badDescriptor => 9
  | .flushed => 10

end Sys2Proof.Machine
end

