-- ==== Sys2Proof/Machine/Records.lean ====
section
/-!
DEFINITION. Table memory as the host sees it byte by byte (R56, R58, R70): what each byte of each record
reads, what a host write to a host byte changes, who owns each byte (R60) and whether record protection takes
a write (R61). Also the fields of descriptors (R70, "Descriptor") and of transaction records (R70,
"Transaction record"), which are read from the bytes of their slots.
-/

namespace Sys2Proof.Machine

open Sys2Proof

/-! ## Bytes of 16-bit fields and of flag bytes -/

def lowByte (h : Half) : Byte := h.setWidth 8
def highByte (h : Half) : Byte := (h >>> 8).setWidth 8
def withLow (h : Half) (v : Byte) : Half := highByte h ++ v
def withHigh (h : Half) (v : Byte) : Half := v ++ lowByte h

/-- A flag at bit `k` of a byte. -/
def flagBit (b : Bool) (k : Nat) : Byte := if b then 1 <<< k else 0

/-! ## State codes (R70) -/

def TargetState.code : TargetState → Byte
  | .offline => 0
  | .online => 1
  | .quarantined => 2

def ChannelState.code : ChannelState → Byte
  | .idle => 0
  | .waiting => 1
  | .busy => 2
  | .done => 3
  | .halted => 4

def DutyState.code : DutyState → Byte
  | .idle => 0
  | .armed => 1
  | .due => 2
  | .running => 3
  | .faulted => 4

/-! ## NOTICE_CAUSES bytes (R70) -/

def TargetRec.notices (r : TargetRec) : Byte := flagBit r.noticeQuarantined 0

def ChannelRec.notices (r : ChannelRec) : Byte :=
  flagBit r.noticeEnd 0 ||| flagBit r.noticeChain 1 ||| flagBit r.noticeHalt 2

def DutyRec.notices (d : DutyRec) : Byte :=
  flagBit d.noticeRunDone 0 ||| flagBit d.noticeRunFailed 1 ||| flagBit d.noticeLate 2 ||| flagBit d.noticeFault 3

/-! ## The byte of a record at an offset (R70) -/

/-- Target record, 16 bytes. -/
def TargetRec.byte (r : TargetRec) : Nat → Byte
  | 0 => r.profile
  | 1 => r.settleCycles
  | 2 => r.pace
  | 3 => r.readyLimit
  | 4 => r.retryLimit
  | 5 => r.quarantineThreshold
  | 8 => r.state.code
  | 9 => r.consecFails
  | 10 => r.lastFailure.code
  | 11 => flagBit r.seq 0 ||| flagBit r.inSync 1 ||| flagBit r.offlinePending 2
  | 12 => lowByte r.framesCompleted
  | 13 => highByte r.framesCompleted
  | 14 => r.notices
  | _ => 0

/-- Channel record, 16 bytes. -/
def ChannelRec.byte (r : ChannelRec) : Nat → Byte
  | 0 => r.triggerLine
  | 1 => r.firstSlot
  | 2 => r.state.code
  | 3 => r.currentSlot
  | 4 => lowByte r.remainingCount
  | 5 => highByte r.remainingCount
  | 6 => r.currentOffset
  | 7 => r.pending
  | 8 => lowByte r.currentAddress
  | 9 => highByte r.currentAddress
  | 10 => flagBit r.stopPending 0
  | 11 => r.haltCause.code
  | 12 => lowByte r.unitsDone
  | 13 => highByte r.unitsDone
  | 14 => r.notices
  | _ => 0

/-- Duty record, 32 bytes; BALANCE is a signed byte in two's complement. -/
def DutyRec.byte (d : DutyRec) : Nat → Byte
  | 0 => d.target
  | 1 => d.postponeLimit
  | 2 => lowByte d.interval
  | 3 => highByte d.interval
  | 4 => lowByte d.phase
  | 5 => highByte d.phase
  | 6 => d.pullinLimit
  | 7 => d.listFirst
  | 8 => d.listLength
  | 9 => d.faultThreshold
  | 10 => d.quietPolicy
  | 11 => d.notifyOnRun
  | 16 => d.state.code
  | 17 => BitVec.ofInt 8 d.balance
  | 18 => lowByte d.remaining
  | 19 => highByte d.remaining
  | 20 => d.consecFails
  | 21 => d.lateCount
  | 22 => flagBit d.held 0 ||| flagBit d.stale 1 ||| flagBit d.disarmPending 2
  | 23 => d.lastFailure.code
  | 24 => d.failPosition
  | 25 => lowByte d.completedRuns
  | 26 => highByte d.completedRuns
  | 27 => d.notices
  | _ => 0

/-! ## A host write to a host byte of a record (R60, R70) -/

def TargetRec.setHostByte (r : TargetRec) (off : Nat) (v : Byte) : TargetRec :=
  match off with
  | 0 => { r with profile := v }
  | 1 => { r with settleCycles := v }
  | 2 => { r with pace := v }
  | 3 => { r with readyLimit := v }
  | 4 => { r with retryLimit := v }
  | 5 => { r with quarantineThreshold := v }
  | _ => r

def ChannelRec.setHostByte (r : ChannelRec) (off : Nat) (v : Byte) : ChannelRec :=
  match off with
  | 0 => { r with triggerLine := v }
  | 1 => { r with firstSlot := v }
  | _ => r

def DutyRec.setHostByte (d : DutyRec) (off : Nat) (v : Byte) : DutyRec :=
  match off with
  | 0 => { d with target := v }
  | 1 => { d with postponeLimit := v }
  | 2 => { d with interval := withLow d.interval v }
  | 3 => { d with interval := withHigh d.interval v }
  | 4 => { d with phase := withLow d.phase v }
  | 5 => { d with phase := withHigh d.phase v }
  | 6 => { d with pullinLimit := v }
  | 7 => { d with listFirst := v }
  | 8 => { d with listLength := v }
  | 9 => { d with faultThreshold := v }
  | 10 => { d with quietPolicy := v }
  | 11 => { d with notifyOnRun := v }
  | _ => d

/-! ## The map (R56) -/

/-- The place of an address: the record and the offset within it, or the data area. -/
inductive Place where
  | target (t : Fin 16) (off : Nat)
  | channel (c : Fin 16) (off : Nat)
  | duty (n : Fin 32) (off : Nat)
  | descriptor (slot : Nat) (off : Nat)
  | transaction (i : Nat) (off : Nat)
  | data
  deriving DecidableEq, Repr

/-- The record an address belongs to (R56). -/
def placeOf (a : BitVec 13) : Place :=
  let k := a.toNat
  if k < 0x0100 then .target ⟨k / 16 % 16, Nat.mod_lt _ (by decide)⟩ (k % 16)
  else if k < 0x0200 then .channel ⟨(k - 0x0100) / 16 % 16, Nat.mod_lt _ (by decide)⟩ (k % 16)
  else if k < 0x0600 then .duty ⟨(k - 0x0200) / 32 % 32, Nat.mod_lt _ (by decide)⟩ (k % 32)
  else if k < 0x0900 then .descriptor ((k - 0x0600) / 16) (k % 16)
  else if k < 0x0D00 then .transaction ((k - 0x0900) / 8) (k % 8)
  else .data

/-- The byte of table memory at `a`, as it stands (R56, R58). -/
def State.tableByte (s : State) (a : BitVec 13) : Byte :=
  match placeOf a with
  | .target t off => (s.target t).byte off
  | .channel c off => (s.channel c).byte off
  | .duty n off => (s.duty n).byte off
  | _ => s.memByte a.toNat

/-! ## Record protection (R60, R61) -/

/-- The byte holds all or part of a host field (R60); a spare or hardware byte does not. -/
def Place.hostByte : Place → Bool
  | .target _ off => decide (off ≤ 5)
  | .channel _ off => decide (off ≤ 1)
  | .duty _ off => decide (off ≤ 11)
  | .descriptor _ off => decide (off ≤ 13)
  | .transaction _ _ => true
  | .data => true

/-- The channel is WAITING or BUSY. -/
def ChannelRec.active (r : ChannelRec) : Bool := r.state == .waiting || r.state == .busy

/-- The duty is ARMED, DUE or RUNNING: its timer runs and its list is protected (R1, R2). -/
def DutyRec.active (d : DutyRec) : Bool := d.state == .armed || d.state == .due || d.state == .running

/-- Record `i` lies within LIST_FIRST ... LIST_FIRST + LIST_LENGTH - 1. -/
def DutyRec.lists (d : DutyRec) (i : Nat) : Bool :=
  decide (d.listFirst.toNat ≤ i) && decide (i < d.listFirst.toNat + d.listLength.toNat)

/-- The record's owner stands in a configurable state (R61). -/
def State.configurable (s : State) : Place → Bool
  | .target t _ => (s.target t).state == .offline
  | .channel c _ => !(s.channel c).active
  | .duty n _ => !(s.duty n).active
  | .descriptor slot _ => !allSixteen.any (fun c => (s.channel c).active && (s.channel c).currentSlot.toNat == slot)
  | .transaction i _ => !allDuties.any (fun n => (s.duty n).active && (s.duty n).lists i)
  | .data => true

/-- Record protection takes a host write at `a` (R60, R61). -/
def State.takesWrite (s : State) (a : BitVec 13) : Bool :=
  (placeOf a).hostByte && s.configurable (placeOf a)

/-- A taken host write replaces the byte at `a` (R59). -/
def State.putHostByte (s : State) (a : BitVec 13) (v : Byte) : State :=
  match placeOf a with
  | .target t off => s.setTarget t ((s.target t).setHostByte off v)
  | .channel c off => s.setChannel c ((s.channel c).setHostByte off v)
  | .duty n off => s.setDuty n ((s.duty n).setHostByte off v)
  | _ => s.writeMem a.toNat [v]

/-! ## Descriptors (R70, R78) -/

/-- The fields of a descriptor as its owner reads them. -/
structure Descriptor where
  isWrite : Bool
  unitSize : Byte
  target : Fin 16
  offsetIncrement : Bool
  memoryIncrement : Bool
  startOffset : Byte
  memoryStart : Half
  count : Half
  endAction : Byte
  nextSlot : Byte
  ackEnable : Bool
  ackOffset : Byte
  ackValue : Byte
  notify : Bool
  deriving DecidableEq, Repr

/-- The first address of descriptor slot `k` (R56). -/
def slotAddress (k : Nat) : Nat := Config.descriptorBase + 16 * k

/-- The descriptor in slot `k`, as its bytes stand (R70). -/
def State.descriptor (s : State) (k : Nat) : Descriptor :=
  let a := slotAddress k
  { isWrite := s.memByte a != 0
    unitSize := s.memByte (a + 1)
    target := sixteenIndex (s.memByte (a + 2))
    offsetIncrement := (s.memByte (a + 2)).getLsbD 4
    memoryIncrement := (s.memByte (a + 2)).getLsbD 5
    startOffset := s.memByte (a + 3)
    memoryStart := s.memHalf (a + 4)
    count := s.memHalf (a + 6)
    endAction := s.memByte (a + 8)
    nextSlot := s.memByte (a + 9)
    ackEnable := s.memByte (a + 10) != 0
    ackOffset := s.memByte (a + 11)
    ackValue := s.memByte (a + 12)
    notify := s.memByte (a + 13) != 0 }

/-- A descriptor is valid (R78). -/
def Descriptor.valid (d : Descriptor) : Bool :=
  (d.unitSize == 1 || d.unitSize == 2 || d.unitSize == 4)
    && decide (1 ≤ d.count.toNat) && decide (d.count.toNat ≤ 4096)
    && (d.endAction == 0 || (d.endAction == 1 && decide (d.nextSlot.toNat ≤ 47)) || d.endAction == 2)
    && decide (Config.dataBase ≤ d.memoryStart.toNat)
    && decide (d.memoryStart.toNat + d.unitSize.toNat ≤ Config.tableSize)

/-- The descriptor channel `c` is following. -/
def State.currentDescriptor (s : State) (c : Fin 16) : Descriptor :=
  s.descriptor (s.channel c).currentSlot.toNat

/-! ## Transaction records (R70, 2.4) -/

/-- What a transaction does (R70: code 1, 2 or 3; code 0 is invalid). -/
inductive TransactionKind where
  | invalid | write | readCapture | readCompare
  deriving DecidableEq, Repr

/-- The first address of transaction record `i` (R56). -/
def transactionAddress (i : Nat) : Nat := Config.transactionBase + 8 * i

def State.transactionKind (s : State) (i : Nat) : TransactionKind :=
  match (s.memByte (transactionAddress i)).toNat % 4 with
  | 1 => .write
  | 2 => .readCapture
  | 3 => .readCompare
  | _ => .invalid

/-- The compare enable for DATA byte `k` (R70). -/
def State.compareEnable (s : State) (i k : Nat) : Bool := (s.memByte (transactionAddress i)).getLsbD (4 + k)
def State.transactionOffset (s : State) (i : Nat) : Byte := s.memByte (transactionAddress i + 1)
def State.transactionLength (s : State) (i : Nat) : Nat := (s.memByte (transactionAddress i + 2)).toNat
def State.pauseAfter (s : State) (i : Nat) : Nat := (s.memByte (transactionAddress i + 3)).toNat

/-- The address of DATA0 of transaction record `i`. -/
def transactionData (i : Nat) : Nat := transactionAddress i + 4

/-- Transaction record `i` passes the checks of R24. -/
def State.transactionValid (s : State) (i : Nat) : Bool :=
  let n := s.transactionLength i
  s.transactionKind i != .invalid && decide (1 ≤ n) && decide (n ≤ 4)
    && (s.transactionKind i != .readCompare || (List.range n).any (fun k => s.compareEnable i k))

end Sys2Proof.Machine
end

