-- ==== Sys2Proof/Machine/Flags.lean ====
section
/-!
DEFINITION. The notice set (R184), the interrupt causes (R186), INT# (R187), STATUS (R179), the count of
free host slots (R103) and the completion head (R110). Each is computed from the state that is its one home.
-/

namespace Sys2Proof.Machine

open Sys2Proof

/-- Member code `m` (0 ... 31 duties, 32 ... 47 channels, 48 ... 63 targets): the record's NOTICE_CAUSES. -/
def State.memberCauses (s : State) (m : Nat) : Byte :=
  if m < 32 then (s.duty ⟨m % 32, Nat.mod_lt _ (by decide)⟩).notices
  else if m < 48 then (s.channel ⟨(m - 32) % 16, Nat.mod_lt _ (by decide)⟩).notices
  else if m < 64 then (s.target ⟨(m - 48) % 16, Nat.mod_lt _ (by decide)⟩).notices
  else 0

/-- The notice set, its members in ascending code: exactly those whose record holds a cause (R184). -/
def State.noticeSet (s : State) : List Nat :=
  (List.range 64).filter (fun m => s.memberCauses m != 0)

/-- The member kind that NOTICE_CAUSE shows in its high byte (R70, "Notice port"). -/
def memberKind (m : Nat) : Byte := if m < 32 then 1 else if m < 48 then 2 else 3

/-- Empties NOTICE_CAUSES of a record. -/
def DutyRec.clearNotices (d : DutyRec) : DutyRec :=
  { d with noticeRunDone := false, noticeRunFailed := false, noticeLate := false, noticeFault := false }

def ChannelRec.clearNotices (r : ChannelRec) : ChannelRec :=
  { r with noticeEnd := false, noticeChain := false, noticeHalt := false }

def TargetRec.clearNotices (r : TargetRec) : TargetRec := { r with noticeQuarantined := false }

/-- Empties NOTICE_CAUSES of member `m`, which removes it from the notice set (R185). -/
def State.collectMember (s : State) (m : Nat) : State :=
  if m < 32 then
    let n : Fin 32 := ⟨m % 32, Nat.mod_lt _ (by decide)⟩
    s.setDuty n (s.duty n).clearNotices
  else if m < 48 then
    let c : Fin 16 := ⟨(m - 32) % 16, Nat.mod_lt _ (by decide)⟩
    s.setChannel c (s.channel c).clearNotices
  else
    let t : Fin 16 := ⟨(m - 48) % 16, Nat.mod_lt _ (by decide)⟩
    s.setTarget t (s.target t).clearNotices

/-- The level cause NOTICE: the notice set is not empty (R184, R186). -/
def State.noticePresent (s : State) : Bool :=
  allDuties.any (fun n => (s.duty n).notices != 0) || allSixteen.any (fun c => (s.channel c).notices != 0)
    || allSixteen.any (fun t => (s.target t).notices != 0)

/-- The level cause COMPLETION: the completion queue is not empty (R110, R186). -/
def State.completionPresent (s : State) : Bool := !s.completions.isEmpty

/-- INT_CAUSE as it stands (R186). -/
def State.intCause (s : State) : Half :=
  (flagBit s.noticePresent 0 ||| flagBit s.completionPresent 1 ||| flagBit s.commandDone 2
    ||| flagBit s.busStateCause 3 ||| flagBit s.guardCause 4 ||| flagBit s.collisionCause 5
    ||| flagBit s.readyCause 6).setWidth 16

/-- INT# is driven low: a cause is present whose enable is 1 (R187). -/
def State.intLow (s : State) : Bool := s.intCause &&& s.intEnable != 0

/-- The write of INT_CAUSE: each sticky cause whose bit is 1 is cleared (R186). -/
def State.clearSticky (s : State) (v : Half) : State :=
  { s with
    commandDone := s.commandDone && !v.getLsbD 2
    busStateCause := s.busStateCause && !v.getLsbD 3
    guardCause := s.guardCause && !v.getLsbD 4
    collisionCause := s.collisionCause && !v.getLsbD 5
    readyCause := s.readyCause && !v.getLsbD 6 }

/-- BUS_STATE_CODE (R179). -/
def BusState.code : BusState → Byte
  | .active => 0
  | .draining => 1
  | .quiet => 2
  | .waking => 3
  | .excursion => 4

/-- STATUS as it stands (R179). -/
def State.status (s : State) : Byte :=
  flagBit (s.phase == .running) 0 ||| flagBit (s.unit == .pending) 1 ||| (s.busState.code <<< 2)

/-- SLOTS_FREE: 8 minus queued requests, minus 1 when one is in flight, minus completion records (R103). -/
def State.slotsFree (s : State) : Nat :=
  8 - (s.requests.length + (if s.inFlight.isSome then 1 else 0) + s.completions.length)

/-- Byte `k` of the completion head; 0 while the completion queue is empty (R110). -/
def State.completionHead (s : State) (k : Nat) : Byte :=
  match s.completions with
  | [] => 0
  | c :: _ =>
    match k with
    | 0 => c.tag
    | 1 => c.status.code
    | 2 => c.bytes
    | _ => c.attempts

end Sys2Proof.Machine
end

