-- ==== Sys2Proof/Machine/Channels.lean ====
section
/-!
DEFINITION. The trigger unit (chapter 4): edge selections (R73, R75), trigger arrivals and overruns (R81 to
R83), the target check of a waiting channel (R84), loads (R79), the end of a unit (R88, R89, R93 to R96) and
the soft-reset effect on a channel (R101).
-/

namespace Sys2Proof.Machine

open Sys2Proof

/-! ## Trigger lines (R73, R75) -/

/-- The selection of line `k` takes an edge to level `level`: bit 2k selects rising edges, bit 2k + 1 falling
ones (codes 0 NONE, 1 RISING, 2 FALLING, 3 BOTH). -/
def State.edgeSelected (s : State) (k : Fin 8) (level : Bool) : Bool :=
  s.lineEdge.getLsbD (2 * k.val + (if level then 0 else 1))

/-- The channel listens to line `k`: TRIGGER_LINE 1 ... 8 stands for T0 ... T7, any other code for NONE (R75). -/
def ChannelRec.listens (r : ChannelRec) (k : Fin 8) : Bool := r.triggerLine.toNat == k.val + 1

/-! ## Halting (R95) -/

/-- Every entry into HALTED (R95). -/
def ChannelRec.halt (r : ChannelRec) : ChannelRec :=
  { r with state := .halted, pending := 0, stopPending := false, noticeHalt := true }

/-- A cause recorded in HALT_CAUSE; the first one stands (R83, R95). -/
def ChannelRec.recordCause (r : ChannelRec) (cause : Condition) : ChannelRec :=
  { r with haltCause := if r.haltCause = .none then cause else r.haltCause }

/-! ## Arrivals (R81 to R83) -/

/-- What an arrival did, as TRIGGER_CHANNEL reports it (R86). -/
inductive Arrival where
  | ignored | counted | overran
  deriving DecidableEq, Repr

/-- What an arrival does at a channel as it stands (R81). -/
def ChannelRec.arrival (r : ChannelRec) : Arrival :=
  if r.active then (if r.pending.toNat ≤ 1 then .counted else .overran) else .ignored

/-- The channel record after an arrival: ignored (R81), counted (R81), or an overrun that halts a WAITING
channel (R82) and is recorded at a BUSY one (R83). -/
def ChannelRec.arrive (r : ChannelRec) : ChannelRec :=
  match r.arrival with
  | .ignored => r
  | .counted => { r with pending := r.pending + 1 }
  | .overran => if r.state = .waiting then { r with haltCause := .overrun }.halt else r.recordCause .overrun

/-- A trigger arrival at channel `c`. -/
def State.arriveAt (s : State) (c : Fin 16) : State := s.setChannel c (s.channel c).arrive

/-! ## The target check of waiting channels (R84) -/

/-- Channel `c` is WAITING with PENDING 1 or 2 (R84, R87). -/
def State.hasTrigger (s : State) (c : Fin 16) : Bool :=
  (s.channel c).state == .waiting && (s.channel c).pending != 0

/-- A WAITING channel with triggers pending whose target is not ONLINE halts with TARGET_DOWN (R84). -/
def State.haltIfDown (s : State) (c : Fin 16) : State :=
  if s.hasTrigger c && !s.online (s.currentDescriptor c).target then
    s.setChannel c { s.channel c with haltCause := .targetDown }.halt
  else s

/-- R84 applied to every channel. -/
def State.haltDownChannels (s : State) : State := allSixteen.foldl State.haltIfDown s

/-! ## Loads (R79) -/

/-- The current fields after a load of the valid descriptor `d` in slot `slot` (R79). -/
def ChannelRec.load (r : ChannelRec) (slot : Byte) (d : Descriptor) : ChannelRec :=
  { r with
    currentSlot := slot
    remainingCount := d.count
    currentOffset := d.startOffset
    currentAddress := d.memoryStart }

/-! ## The end of a unit (R88) -/

/-- CURRENT_OFFSET and CURRENT_ADDRESS step after a successful unit (R89). -/
def ChannelRec.step (r : ChannelRec) (d : Descriptor) : ChannelRec :=
  { r with
    currentOffset := if d.offsetIncrement then r.currentOffset + d.unitSize else r.currentOffset
    currentAddress := if d.memoryIncrement then r.currentAddress + d.unitSize.setWidth 16 else r.currentAddress }

/-- The counts of a successful unit, before its end action (R88, step 1). -/
def ChannelRec.countUnit (r : ChannelRec) (d : Descriptor) : ChannelRec :=
  { r.step d with
    pending := if r.pending = 0 then 0 else r.pending - 1
    remainingCount := r.remainingCount - 1
    unitsDone := r.unitsDone + 1 }

/-- CHAIN or RELOAD loads `slot` in place of the descriptor `d` whose count ended (R93). -/
def State.chainTo (s : State) (r : ChannelRec) (d : Descriptor) (slot : Byte) : ChannelRec :=
  if (s.descriptor slot.toNat).valid then
    { r.load slot (s.descriptor slot.toNat) with noticeChain := r.noticeChain || d.notify }
  else { r with currentSlot := slot }.recordCause .badDescriptor

/-- The end action of the descriptor `d` whose count ended (R93): CHAIN, RELOAD, else STOP. -/
def State.endAction (s : State) (r : ChannelRec) (d : Descriptor) : ChannelRec :=
  if d.endAction = 1 then s.chainTo r d d.nextSlot
  else if d.endAction = 2 then s.chainTo r d r.currentSlot
  else { r with noticeEnd := r.noticeEnd || d.notify }

/-- Step 1 of R88 on success. -/
def State.unitSuccess (s : State) (c : Fin 16) : ChannelRec :=
  let d := s.currentDescriptor c
  let r := (s.channel c).countUnit d
  if r.remainingCount = 0 then s.endAction r d else r

/-- The unit's success ended its descriptor's count with END_ACTION STOP (R88, step 2). -/
def State.unitStops (s : State) (c : Fin 16) : Bool :=
  let d := s.currentDescriptor c
  ((s.channel c).countUnit d).remainingCount == 0 && d.endAction != 1 && d.endAction != 2

/-- Step 2 of R88: IDLE by a pending stop (R96), HALTED by a recorded cause (R95), DONE by a STOP, else WAITING. -/
def ChannelRec.unitNext (r : ChannelRec) (stops : Bool) : ChannelRec :=
  if r.stopPending then
    { r with
      state := .idle
      pending := 0
      stopPending := false
      noticeHalt := r.noticeHalt || r.haltCause != .none }
  else if r.haltCause ≠ .none then r.halt
  else if stops then { r with state := .done, pending := 0 }
  else { r with state := .waiting }

/-- The record at the end of a unit (R88), `failure` being `none` on success. -/
def State.unitRecord (s : State) (c : Fin 16) (failure : Condition) : ChannelRec :=
  if failure = .none then (s.unitSuccess c).unitNext (s.unitStops c)
  else ((s.channel c).recordCause failure).unitNext false

/-- The end of channel `c`'s unit: its record, the completion of a pending STOP_CHANNEL, and the end of the
grant, as one event (R88, R96). -/
def State.unitEnd (s : State) (c : Fin 16) (failure : Condition) : State :=
  let t := (s.setChannel c (s.unitRecord c failure)).endGrant
  if (s.channel c).stopPending then t.completeCommand else t

/-! ## Soft reset (R101) -/

/-- The soft-reset effect on a channel record (R101). -/
def ChannelRec.softReset (r : ChannelRec) : ChannelRec :=
  { r.clearNotices with state := .idle, pending := 0, stopPending := false }

end Sys2Proof.Machine
end

