-- ==== Sys2Proof/Machine/Requests.lean ====
section
/-!
DEFINITION. The pass-through unit (chapter 5): the staging record and its checks (R102, R104), the request
queue with the host wait count that follows it (R105, R124), disposal of requests to targets that are not
ONLINE (R106), completions (R109, R110), flushing (R112) and the soft-reset effects (R115).
-/

namespace Sys2Proof.Machine

open Sys2Proof

/-! ## The staging record (R70, R102, R104) -/

def State.stagedTarget (s : State) : Byte := s.staging[1]
def State.stagedLength (s : State) : Byte := s.staging[4]
def State.stagedAddress (s : State) : Half := s.staging[6] ++ s.staging[5]

/-- The staging record passes the checks of R104, step 1. -/
def State.stagingValid (s : State) : Bool :=
  decide (s.stagedTarget.toNat ≤ 15)
    && (s.staging[2] == 0 || s.staging[2] == 1)
    && decide (1 ≤ s.stagedLength.toNat) && decide (s.stagedLength.toNat ≤ 16)
    && decide (Config.dataBase ≤ s.stagedAddress.toNat)
    && decide (s.stagedAddress.toNat + s.stagedLength.toNat ≤ Config.tableSize)

/-- The copy of the staging record that SUBMIT accepts (R104). -/
def State.stagedRequest (s : State) : Request where
  tag := s.staging[0]
  target := sixteenIndex s.stagedTarget
  isWrite := s.staging[2] == 1
  offset := s.staging[3]
  length := s.stagedLength.toNat
  address := s.stagedAddress.toNat
  forceSync := s.staging[7].getLsbD 0

/-! ## Queues -/

/-- A completion record of a request that ends without a frame (R106, R108, R112). -/
def Request.without (r : Request) (status : Condition) : Completion := ⟨r.tag, status, 0, 0⟩

/-- Sets the request queue; the host wait count returns to 0 when it becomes empty (R124). -/
def State.setRequests (s : State) (q : List Request) : State :=
  { s with requests := q, hostWait := if q.isEmpty then 0 else s.hostWait }

/-- Appends completion records at the tail of the completion queue (R110). -/
def State.appendCompletions (s : State) (cs : List Completion) : State :=
  { s with completions := s.completions ++ cs }

/-- The leading requests whose targets are not ONLINE: those R106 disposes of in one event. -/
def State.disposed (s : State) : List Request := s.requests.takeWhile (fun r => !s.online r.target)

/-- The requests that remain after disposal: the queue is empty or its head has an ONLINE target (R106). -/
def State.remainingRequests (s : State) : List Request := s.requests.dropWhile (fun r => !s.online r.target)

/-- Disposal of the head, and of each head it exposes, with TARGET_DOWN and without the bus (R106). -/
def State.disposeHeads (s : State) : State :=
  if s.disposed.isEmpty then s
  else (s.appendCompletions (s.disposed.map (fun r => r.without .targetDown))).setRequests s.remainingRequests

/-- Every queued request is completed as FLUSHED, from the head to the tail (R112). -/
def State.flushRequests (s : State) : State :=
  (s.appendCompletions (s.requests.map (fun r => r.without .flushed))).setRequests []

/-! ## The end of a request (R109) -/

/-- The completion record of a request whose last frame ended with outcome `o` after `attempts` attempts: BYTES
is LENGTH for a data frame that ended OK and 0 otherwise (R109). -/
def Request.complete (r : Request) (o : FrameOutcome) (attempts : Nat) : Completion :=
  ⟨r.tag, o.condition, if o = .ok then BitVec.ofNat 8 r.length else 0, BitVec.ofNat 8 attempts⟩

/-- The in-flight request ends with completion record `c`, and its grant ends, as one event (R109). Where that same
outcome quarantines the target, the heads of the queue it takes down are disposed of behind it, at the event's end
(DESIGN CHOICE: R105, R106, R109 and R153 do not order these records; log entry 23). -/
def State.requestEnd (s : State) (c : Completion) : State :=
  { s.appendCompletions [c] with inFlight := none }.endGrant

/-! ## Soft reset (R115) -/

/-- The record with which an in-flight request ends at a soft reset: the one its last frame's outcome gave,
else FLUSHED (R115, step 1). -/
def State.softCompletion (s : State) : List Completion :=
  match s.inFlight with
  | none => []
  | some r => [s.softEnd.getD (r.without .flushed)]

/-- The soft-reset effects on the pass-through unit: the in-flight request, then the queue (R115). -/
def State.softResetRequests (s : State) : State :=
  { (s.appendCompletions s.softCompletion).flushRequests with inFlight := none, softEnd := none }

end Sys2Proof.Machine
end

