-- ==== Sys2Proof/Machine/Targets.lean ====
section
/-!
DEFINITION. The target table (chapter 8): the counting of frame outcomes (R152), the write-sequence
bookkeeping (R144), quarantine (R153), the validation of a target's host fields (R155), and the completion of
a deferred TARGET_OFFLINE (R157).
-/

namespace Sys2Proof.Machine

open Sys2Proof

/-- The outcome counted in CONSEC_FAILS, LAST_FAILURE and FRAMES_COMPLETED (R152). -/
def TargetRec.count (r : TargetRec) (o : FrameOutcome) : TargetRec :=
  if o.retried then { r with consecFails := r.consecFails + 1, lastFailure := o.condition }
  else { r with consecFails := 0, framesCompleted := r.framesCompleted + 1 }

/-- S and sync-needed at the outcome of a frame of kind `k` (R144); `inSync` is the complement of sync-needed. -/
def TargetRec.sequence (r : TargetRec) (k : FrameKind) (o : FrameOutcome) : TargetRec :=
  match k with
  | .write => if o.retried then { r with inSync := false } else { r with seq := !r.seq }
  | .sync => if o = .ok then { r with inSync := true } else r
  | .read => r

/-- The target enters QUARANTINED when an increase of CONSEC_FAILS brings it to the threshold (R153). -/
def TargetRec.quarantine (r : TargetRec) (o : FrameOutcome) : TargetRec :=
  if o.retried && r.consecFails == r.quarantineThreshold then
    { r with state := .quarantined, noticeQuarantined := true }
  else r

/-- The whole of the target table's rule at a frame outcome: R152, then R144, then R153. -/
def TargetRec.outcome (r : TargetRec) (k : FrameKind) (o : FrameOutcome) : TargetRec :=
  ((r.count o).sequence k o).quarantine o

/-- The outcome of a frame of kind `k` to target `t` reaches the target table (R146). -/
def State.countOutcome (s : State) (t : Fin 16) (k : FrameKind) (o : FrameOutcome) : State :=
  s.setTarget t ((s.target t).outcome k o)

/-- After the outcome is applied, a target with OFFLINE_PENDING becomes OFFLINE and the pending command
completes with OK (R157). -/
def State.completeOffline (s : State) (t : Fin 16) : State :=
  if (s.target t).offlinePending then
    (s.setTarget t { s.target t with state := .offline, offlinePending := false }).completeCommand
  else s

/-- The host fields pass the check of TARGET_ONLINE (R155). -/
def TargetRec.valid (r : TargetRec) : Bool :=
  (r.profile == 0 || r.profile == 1)
    && decide (r.settleCycles.toNat ≤ 15) && decide (r.pace.toNat ≤ 15)
    && r.readyLimit != 0
    && decide (r.retryLimit.toNat ≤ 3)
    && decide (1 ≤ r.quarantineThreshold.toNat) && decide (r.quarantineThreshold.toNat ≤ 15)

/-- The record of a target just brought ONLINE (R155). -/
def TargetRec.bringOnline (r : TargetRec) : TargetRec :=
  { r with state := .online, consecFails := 0, inSync := false }

end Sys2Proof.Machine
end

