-- ==== Sys2Proof/Machine/Upkeep.lean ====
section
/-!
DEFINITION. The upkeep engine's account (chapters 1 and 2): what is read from the balance (R10), the due
queue's order (R31, R32), expiries (R7, R11 to R14), a tick (R15), the ends of a run (R45, R47, R26), the
validation of a duty record (R24), arming (R23), and stale marking (R171).
-/

namespace Sys2Proof.Machine

open Sys2Proof

/-! ## What is read from the balance (R10) -/

/-- The runs a duty is behind (R10). -/
def DutyRec.owed (d : DutyRec) : Nat := (-d.balance).toNat

/-- The postponement a duty has left (R10). -/
def DutyRec.slack (d : DutyRec) : Int := (d.postponeLimit.toNat : Int) - (d.owed : Int)

/-- QUIET_POLICY encodes HOLD (R70). -/
def DutyRec.holds (d : DutyRec) : Bool := d.quietPolicy == 0

/-- QUIET_POLICY encodes WAKE (R70). -/
def DutyRec.wakes (d : DutyRec) : Bool := d.quietPolicy == 1

/-! ## The due queue (R30 to R32) -/

/-- Places duty `n` immediately after the last entry whose slack is at most `n`'s, at the head when there is
none (R31). -/
def placeBySlack (slack : Fin 32 → Int) (n : Fin 32) : List (Fin 32) → List (Fin 32)
  | [] => [n]
  | e :: q =>
    if (e :: q).any (fun k => decide (slack k ≤ slack n)) then e :: placeBySlack slack n q else n :: e :: q

/-- The slack of duty `n` as it stands. -/
def State.slackOf (s : State) (n : Fin 32) : Int := (s.duty n).slack

/-- Inserts duty `n` into the due queue (R31). -/
def State.insertDue (s : State) (n : Fin 32) : State :=
  { s with dueQueue := placeBySlack s.slackOf n s.dueQueue }

/-- Removes duty `n` from the due queue; the entries behind it close up (R30). -/
def State.removeDue (s : State) (n : Fin 32) : State :=
  { s with dueQueue := s.dueQueue.filter (fun k => k != n) }

/-- An entry is eligible when it is neither blocked nor held (R34). -/
def State.eligible (s : State) (n : Fin 32) : Bool := s.online (s.dutyTarget n) && !(s.duty n).held

/-! ## Expiries (R7, R11 to R14) -/

/-- The timer of a duty is paused in a bus state (R6). -/
def DutyRec.paused (d : DutyRec) (b : BusState) : Bool :=
  d.holds && (b == .quiet || b == .waking || b == .excursion)

/-- An expiry that finds BALANCE at -POSTPONE_LIMIT: only LATE_COUNT and the notice LATE move (R12). -/
def DutyRec.late (d : DutyRec) : DutyRec :=
  { d with
    lateCount := if d.lateCount = 255 then 255 else d.lateCount + 1
    noticeLate := true }

/-- BALANCE stands at -POSTPONE_LIMIT (R12). -/
def DutyRec.atLimit (d : DutyRec) : Bool := d.balance == -(d.postponeLimit.toNat : Int)

/-- The expiry of duty `n`: the timer reloads with INTERVAL (R7), then BALANCE, the state and the due queue
move by the duty's state (R11 ARMED, R12 late, R13 and R32 DUE, R14 RUNNING). A duty whose timer does not run
has no expiry. -/
def State.expireDuty (s : State) (n : Fin 32) : State :=
  let d := { s.duty n with remaining := (s.duty n).interval }
  let lowered := { d with balance := d.balance - 1 }
  match d.state with
  | .idle => s
  | .faulted => s
  | .armed =>
    if lowered.balance < 0 then (s.setDuty n { lowered with state := .due }).insertDue n else s.setDuty n lowered
  | .due =>
    if d.atLimit then s.setDuty n d.late else ((s.setDuty n lowered).removeDue n).insertDue n
  | .running => if d.atLimit then s.setDuty n d.late else s.setDuty n lowered

/-- One duty's part of a tick: a timer that runs and is not paused is decremented, and at 0 it expires (R6, R7). -/
def State.tickDuty (s : State) (n : Fin 32) : State :=
  let d := s.duty n
  if d.active && !d.paused s.busState then
    if d.remaining.toNat ≤ 1 then s.expireDuty n else s.setDuty n { d with remaining := d.remaining - 1 }
  else s

/-- A tick at the upkeep engine: every HELD flag clears, then the timers are processed in ascending index (R15). -/
def State.upkeepTick (s : State) : State :=
  allDuties.foldl State.tickDuty (s.mapDuties (fun d => { d with held := false }))

/-! ## Runs (R37, R45, R47, R26) -/

/-- The list position's transaction record (2.4). -/
def State.recordAt (s : State) (n : Fin 32) (position : Nat) : Nat := (s.duty n).listFirst.toNat + position - 1

/-- The duty's state after a run that ends counted, by its balance; a DUE duty enters the queue (R45, R47). -/
def State.settleDuty (s : State) (n : Fin 32) (d : DutyRec) : State :=
  if d.balance < 0 then (s.setDuty n { d with state := .due }).insertDue n else s.setDuty n { d with state := .armed }

/-- The record after a successful run, its state apart (R45). -/
def DutyRec.succeed (d : DutyRec) : DutyRec :=
  { d with
    balance := if d.balance < (d.pullinLimit.toNat : Int) then d.balance + 1 else d.balance
    completedRuns := d.completedRuns + 1
    consecFails := 0
    stale := false
    noticeRunDone := d.noticeRunDone || d.notifyOnRun != 0 }

/-- A run ends successfully (R45) and its grant ends (R48). -/
def State.runSucceeded (s : State) (n : Fin 32) : State := (s.settleDuty n (s.duty n).succeed).endGrant

/-- The record after a failed run, its state apart: LAST_FAILURE, FAIL_POSITION, RUN_FAILED and CONSEC_FAILS
(R47, R20). -/
def DutyRec.fail (d : DutyRec) (cause : Condition) (position : Nat) : DutyRec :=
  { d with
    lastFailure := cause
    failPosition := BitVec.ofNat 8 position
    consecFails := if cause = .targetDown then d.consecFails else d.consecFails + 1
    noticeRunFailed := true }

/-- The failure brings CONSEC_FAILS to FAULT_THRESHOLD: only an increase can (R20, R21). -/
def DutyRec.faults (d : DutyRec) (cause : Condition) : Bool :=
  cause != .targetDown && d.consecFails + 1 == d.faultThreshold

/-- A run ends failed at list position `position` (R47; R21 when it faults the duty) and its grant ends (R48). -/
def State.runFailed (s : State) (n : Fin 32) (cause : Condition) (position : Nat) : State :=
  let d := (s.duty n).fail cause position
  if (s.duty n).faults cause then
    (s.setDuty n { d with state := .faulted, held := false, stale := false, noticeFault := true }).endGrant
  else (s.settleDuty n { d with held := true }).endGrant

/-- The record of a duty that a disarm returns to IDLE: balance 0, the timer stopped where it stands, HELD and
STALE clear (R25). -/
def DutyRec.disarm (d : DutyRec) : DutyRec :=
  { d with state := .idle, balance := 0, held := false, stale := false }

/-- The record of a duty whose run is cut: as disarmed, with DISARM_PENDING clear (R26). -/
def DutyRec.cut (d : DutyRec) : DutyRec := { d.disarm with disarmPending := false }

/-- The run of duty `n` is cut: the duty becomes IDLE uncounted and the grant ends (R26). -/
def State.cutRun (s : State) (n : Fin 32) : State := (s.setDuty n (s.duty n).cut).endGrant

/-! ## Arming (R23, R24) -/

/-- The duty record and each transaction record of its list pass the checks of R24. -/
def State.dutyValid (s : State) (n : Fin 32) : Bool :=
  let d := s.duty n
  decide (d.target.toNat ≤ 15)
    && d.interval != 0
    && decide (d.phase.toNat ≤ d.interval.toNat)
    && decide (1 ≤ d.postponeLimit.toNat) && decide (d.postponeLimit.toNat ≤ 12)
    && decide (d.pullinLimit.toNat ≤ 12)
    && decide (d.listFirst.toNat ≤ 127)
    && decide (1 ≤ d.listLength.toNat) && decide (d.listLength.toNat ≤ 8)
    && decide (d.listFirst.toNat + d.listLength.toNat ≤ 128)
    && decide (1 ≤ d.faultThreshold.toNat) && decide (d.faultThreshold.toNat ≤ 7)
    && (d.holds || d.wakes)
    && (List.range d.listLength.toNat).all (fun k => s.transactionValid (d.listFirst.toNat + k))

/-- The record of a duty just armed (R23, R8). -/
def DutyRec.arm (d : DutyRec) : DutyRec :=
  { d with
    state := .armed
    balance := 0
    remaining := if d.phase = 0 then d.interval else d.phase
    consecFails := 0
    lateCount := 0
    held := false
    stale := false
    disarmPending := false
    lastFailure := .none
    failPosition := 0 }

/-! ## Stale marking (R171) and soft reset (R29) -/

/-- Stale marking of one record (R171). -/
def DutyRec.markStale (d : DutyRec) : DutyRec :=
  if d.holds && (d.state == .armed || d.state == .due) then { d with stale := true } else d

/-- Stale marking (R171). -/
def State.markStale (s : State) : State := s.mapDuties DutyRec.markStale

/-- The soft-reset effect on a duty record: IDLE, every hardware field 0, the host fields kept (R29). -/
def DutyRec.softReset (d : DutyRec) : DutyRec :=
  { DutyRec.zero with
    target := d.target
    postponeLimit := d.postponeLimit
    interval := d.interval
    phase := d.phase
    pullinLimit := d.pullinLimit
    listFirst := d.listFirst
    listLength := d.listLength
    faultThreshold := d.faultThreshold
    quietPolicy := d.quietPolicy
    notifyOnRun := d.notifyOnRun }

end Sys2Proof.Machine
end

