-- ==== Sys2Proof/Machine/Bus.lean ====
section
/-!
DEFINITION. The bus engine and the work of a grant on it (chapter 7 with R37 to R44, R89 to R92, R107 to
R109): the start of an attempt and of a frame, a SYNC in place of a WRITE (R145), the target check and the next
frame of each requester, and what each requester does at a frame's outcome (R146), also under a pending
SOFT_RESET (R29, R101, R115).
-/

namespace Sys2Proof.Machine

open Sys2Proof

/-! ## Attempts and frames -/

/-- The data bytes a WRITE frame drives, read from its source as it stands (R65, R133). -/
def State.pathBytes (s : State) (f : Frame) : List Byte :=
  match f.kind, f.path with
  | .write, .record i => memReadList s.mem (transactionData i) f.length
  | .write, .area a => memReadList s.mem a f.length
  | .write, .value v => [v]
  | _, _ => []

/-- Attempt number `count` of frame `f`: the target's fields are read and the data bytes are taken afresh (R131). -/
def State.newAttempt (s : State) (f : Frame) (count : Nat) : Attempt :=
  let t := s.target f.target
  { frame := f
    count := count
    profile := t.profile
    settleCycles := t.settleCycles
    pace := t.pace
    readyLimit := t.readyLimit
    retryLimit := t.retryLimit
    sent := s.pathBytes f
    driven := 0 }

/-- The SYNC frame to target `t` (R135, R145). -/
def syncFrame (t : Fin 16) : Frame := ⟨.sync, t, 0, 0, .none⟩

/-- The frame that goes out for `f`: a SYNC in place of a WRITE to a target whose sync-needed mark is set (R145). -/
def State.frameFor (s : State) (f : Frame) : Frame :=
  if f.kind = .write ∧ (s.target f.target).inSync = false then syncFrame f.target else f

/-- The bus engine starts a frame for `f`: its first attempt begins and BUS_DIV is latched (R130, R131, R145). -/
def State.startFrame (s : State) (f : Frame) : State :=
  { s with engine := .attempt (s.newAttempt (s.frameFor f) 1), busDivInForce := s.busDiv }

/-- The bus engine starts a broadcast; BUS_DIV is latched (R130, R147). -/
def State.startBroadcast (s : State) (b : Broadcast) : State :=
  { s with engine := .broadcast b, busDivInForce := s.busDiv }

/-- The idle gap between two frames of one grant: one cycle and `pause` cycles more (R142, R43). -/
def State.startInterGap (s : State) (pause : Nat) : State := { s with engine := .interGap (1 + pause) }

/-! ## The next frame of the work that holds the grant -/

/-- The frame of transaction record `i` of a duty whose target is `t` (R39 to R41). -/
def State.transactionFrame (s : State) (t : Fin 16) (i : Nat) : Frame :=
  { kind := if s.transactionKind i = .write then .write else .read
    target := t
    offset := s.transactionOffset i
    length := s.transactionLength i
    path := .record i }

/-- A duty's transaction begins: the target check, then its frame (R38, R39 to R41). -/
def State.startTransaction (s : State) (n : Fin 32) (position : Nat) : State :=
  if s.online (s.dutyTarget n) then s.startFrame (s.transactionFrame (s.dutyTarget n) (s.recordAt n position))
  else s.runFailed n .targetDown position

/-- The data frame of channel `c`'s unit (R91). -/
def State.unitFrame (s : State) (c : Fin 16) : Frame :=
  let d := s.currentDescriptor c
  { kind := if d.isWrite then .write else .read
    target := d.target
    offset := (s.channel c).currentOffset
    length := d.unitSize.toNat
    path := .area (s.channel c).currentAddress.toNat }

/-- The acknowledge frame of channel `c`'s unit (R92). -/
def State.acknowledgeFrame (s : State) (c : Fin 16) : Frame :=
  let d := s.currentDescriptor c
  { kind := .write, target := d.target, offset := d.ackOffset, length := 1, path := .value d.ackValue }

/-- The next frame of a unit: the target check, then the data frame or the acknowledge frame (R90 to R92). -/
def State.startUnitFrame (s : State) (c : Fin 16) (acknowledge : Bool) : State :=
  if s.online (s.currentDescriptor c).target then
    s.startFrame (if acknowledge then s.acknowledgeFrame c else s.unitFrame c)
  else s.unitEnd c .targetDown

/-- The address check at the start of a unit (R89). -/
def State.unitInRange (s : State) (c : Fin 16) : Bool :=
  let a := (s.channel c).currentAddress.toNat
  decide (Config.dataBase ≤ a) && decide (a + (s.currentDescriptor c).unitSize.toNat ≤ Config.tableSize)

/-- The data frame of a host request (R109). -/
def Request.frame (r : Request) : Frame where
  kind := if r.isWrite then .write else .read
  target := r.target
  offset := r.offset
  length := r.length
  path := .area r.address

/-- The next frame of the in-flight request `r`: the target check, then its frame (R108, R109). -/
def State.startRequestFrame (s : State) (r : Request) : State :=
  if s.online r.target then s.startFrame r.frame else s.requestEnd (r.without .targetDown)

/-- The work that holds the grant goes on: its requester's target check, then its next frame. -/
def State.startWork (s : State) : State :=
  match s.grant, s.inFlight with
  | some (.duty n position), _ => s.startTransaction n position
  | some (.channel c acknowledge), _ => s.startUnitFrame c acknowledge
  | some .host, some r => s.startRequestFrame r
  | _, _ => s.endGrant

/-- The first target check of the work a decision has granted, where it is still to come: an event of its own
behind the decision (R38, R90, R106, R108, R120; DESIGN CHOICE of its moment: log entry 22). -/
def State.firstCheck (s : State) : State := if s.engine = .granted then s.startWork else s

/-- The target that the first check of the granted work reads. -/
def State.workTarget (s : State) : Option (Fin 16) :=
  match s.grant, s.inFlight with
  | some (.duty n _), _ => some (s.dutyTarget n)
  | some (.channel c _), _ => some (s.currentDescriptor c).target
  | some .host, some r => some r.target
  | _, _ => none

/-! ## The outcome of a frame at its requester (R146) -/

/-- The bytes received in the attempt whose outcome is OK (R134). -/
def receivedBytes (f : Frame) (data : List Sample) : List Byte :=
  (slotSamples f.length data).map (fun x => x.sd)

/-- A READ frame that ended OK puts its bytes where they go: DATA of a READ_CAPTURE record (R40), or the data
area (R66). A READ_COMPARE's bytes are not stored (R41). -/
def State.storeReceived (s : State) (f : Frame) (o : FrameOutcome) (data : List Sample) : State :=
  if f.kind = .read ∧ o = .ok then
    match f.path with
    | .record i =>
      if s.transactionKind i = .readCapture then s.writeMem (transactionData i) (receivedBytes f data) else s
    | .area a => s.writeMem a (receivedBytes f data)
    | _ => s
  else s

/-- Every enabled byte below LENGTH of a READ_COMPARE equals its DATA byte (R41). -/
def State.comparesEqual (s : State) (f : Frame) (i : Nat) (data : List Sample) : Bool :=
  (List.range f.length).all (fun k =>
    !s.compareEnable i k || (receivedBytes f data).getD k 0xFF == s.memByte (transactionData i + k))

/-- A transaction of a duty is complete: the run ends successfully after the last one, else the pause and the
next position follow (R43, R45). -/
def State.transactionComplete (s : State) (n : Fin 32) (position : Nat) : State :=
  if (s.duty n).listLength.toNat ≤ position then s.runSucceeded n
  else { s with grant := some (.duty n (position + 1)) }.startInterGap (s.pauseAfter (s.recordAt n position))

/-- The outcome of a frame of a run that is not being cut (R39 to R43). -/
def State.dutyFrameEnd (s : State) (n : Fin 32) (position : Nat) (f : Frame) (o : FrameOutcome)
    (data : List Sample) : State :=
  if o ≠ .ok then s.runFailed n o.condition position
  else if f.kind = .sync then s.startInterGap 0
  else
    let i := s.recordAt n position
    if s.transactionKind i = .readCompare && !s.comparesEqual f i data then s.runFailed n .mismatch position
    else s.transactionComplete n position

/-- The outcome of a frame of a unit (R91, R92). -/
def State.channelFrameEnd (s : State) (c : Fin 16) (acknowledge : Bool) (f : Frame) (o : FrameOutcome) : State :=
  if o ≠ .ok then s.unitEnd c o.condition
  else if f.kind = .sync then s.startInterGap 0
  else if !acknowledge && (s.currentDescriptor c).ackEnable then
    { s with grant := some (.channel c true) }.startInterGap 0
  else s.unitEnd c .none

/-- The outcome of a frame of the in-flight request `r` after `attempts` attempts (R109). -/
def State.requestFrameEnd (s : State) (r : Request) (f : Frame) (o : FrameOutcome) (attempts : Nat) : State :=
  if o = .ok ∧ f.kind = .sync then s.startInterGap 0 else s.requestEnd (r.complete o attempts)

/-- The requester that holds the grant applies its own rule at the outcome of the frame of attempt `a` (R146).
A run with DISARM_PENDING stands between frames until it is cut (R26); only the frame's own transaction takes
effect (R51). -/
def State.requesterOutcome (s : State) (a : Attempt) (o : FrameOutcome) (data : List Sample) : State :=
  let u := s.storeReceived a.frame o data
  match s.grant, s.inFlight with
  | some (.duty n position), _ =>
    if (s.duty n).disarmPending then u.startInterGap 0 else u.dutyFrameEnd n position a.frame o data
  | some (.channel c acknowledge), _ => u.channelFrameEnd c acknowledge a.frame o
  | some .host, some r => u.requestFrameEnd r a.frame o a.count
  | _, _ => u.endGrant

/-- The outcome of the frame a SOFT_RESET waits for: the frame has its ordinary effect on memory, and no further
frame of the work starts. The work's uncounted end, its grant's end and its owner's new state come together in the
soft-reset effects (R48, R117, R29, R101, R115; log entry 13), up to which an in-flight request keeps the
completion record that its data frame, or a failed SYNC, gives it. -/
def State.softOutcome (s : State) (a : Attempt) (o : FrameOutcome) (data : List Sample) : State :=
  let u := s.storeReceived a.frame o data
  match s.grant, s.inFlight with
  | some .host, some r =>
    let kept := if o = FrameOutcome.ok ∧ a.frame.kind = FrameKind.sync then none else some (r.complete o a.count)
    { u with softEnd := kept }.startInterGap 0
  | _, _ => u.startInterGap 0

/-- FRAME_OUTCOME (R146): the target table counts the outcome, the requester applies its rule, and a deferred
TARGET_OFFLINE for the frame's target completes (R157). -/
def State.frameOutcome (s : State) (a : Attempt) (o : FrameOutcome) (data : List Sample) : State :=
  let t := a.frame.target
  let u := s.countOutcome t a.frame.kind o
  (if s.softResetPending then u.softOutcome a o data else u.requesterOutcome a o data).completeOffline t

/-- An attempt of frame `a.frame` is over with outcome `o`: a retried outcome with attempts left starts the
retry gap, any other ends the frame (R141). -/
def State.attemptOver (s : State) (a : Attempt) (o : FrameOutcome) (data : List Sample) : State :=
  if o.retried && decide (a.count ≤ a.retryLimit.toNat) then { s with engine := .retryGap a }
  else s.frameOutcome a o data

end Sys2Proof.Machine
end

