-- ==== Sys2Proof/Machine/Arbiter.lean ====
section
/-!
DEFINITION. The arbiter and the quiet controller's decisions at the end of an event (chapters 6 and 9): the
candidates of each requester (R35, R53, R55, R87, R105), the order of each bus state (R122, R123, R125, R126),
taking a grant (R37, R89, R107, R120), the QUIET and WAKE broadcast decisions (R165, R168, R169), the start of an
excursion (R167), and `settle`, which every event of the running part ends with.
-/

namespace Sys2Proof.Machine

open Sys2Proof

/-! ## Candidates -/

/-- The first urgent entry: the eligible entry nearest the head whose slack is 0 (R35). -/
def State.firstUrgent (s : State) : Option (Fin 32) :=
  s.dueQueue.find? (fun n => s.eligible n && s.slackOf n == 0)

/-- The first entry: the eligible entry nearest the head (R35). -/
def State.firstEntry (s : State) : Option (Fin 32) := s.dueQueue.find? (fun n => s.eligible n)

/-- Duty `n` is a pull-in candidate (R53). -/
def State.pullsIn (s : State) (n : Fin 32) : Bool :=
  (s.duty n).state == .armed && s.eligible n && decide ((s.duty n).balance < ((s.duty n).pullinLimit.toNat : Int))

/-- The duty with the fewest REMAINING ticks among `ns`, the earliest of `ns` among equals. -/
def State.soonest (s : State) : List (Fin 32) → Option (Fin 32)
  | [] => none
  | n :: ns =>
    match s.soonest ns with
    | none => some n
    | some m => if (s.duty n).remaining.toNat ≤ (s.duty m).remaining.toNat then some n else some m

/-- The pull-in candidate presented while PULLIN is enabled (R52, R53). -/
def State.pullinCandidate (s : State) : Option (Fin 32) :=
  if s.pullin then s.soonest (allDuties.filter (fun n => s.pullsIn n)) else none

/-- Duty `n` is a freshening candidate (R55). -/
def State.freshens (s : State) (n : Fin 32) : Bool :=
  (s.duty n).state == .armed && s.eligible n && (s.duty n).stale

/-- The freshening candidate of lowest index (R55, R125). -/
def State.firstFreshening (s : State) : Option (Fin 32) := allDuties.find? (fun n => s.freshens n)

/-- The channels in the order in which the round-robin pointer has them searched (R123). -/
def State.searchOrder (s : State) : List (Fin 16) := allSixteen.map (fun k => s.channelPointer + 1 + k)

/-- The channel that the channel class presents first: WAITING with PENDING 1 or 2 (R87, R123). -/
def State.channelCandidate (s : State) : Option (Fin 16) := s.searchOrder.find? (fun c => s.hasTrigger c)

/-- A piece of work the arbiter may grant (R116). -/
inductive Candidate where
  | duty (n : Fin 32)
  | channel (c : Fin 16)
  | host (r : Request)
  deriving DecidableEq, Repr

/-- The channel class and the host class in the order of R122: the host class first when the host wait count is 4. -/
def State.middleClasses (s : State) : Option Candidate :=
  let ch := s.channelCandidate.map Candidate.channel
  let ho := s.requests.head?.map Candidate.host
  if s.hostWait = 4 then ho.or ch else ch.or ho

/-- The candidate of the first class that has one, in bus state ACTIVE (R122). -/
def State.activeChoice (s : State) : Option Candidate :=
  ((s.firstUrgent.map Candidate.duty).or s.middleClasses).or
    ((s.firstEntry.map Candidate.duty).or (s.pullinCandidate.map Candidate.duty))

/-- The candidate the arbiter chooses in the current bus state (R121, R122, R125, R126). -/
def State.choice (s : State) : Option Candidate :=
  match s.busState with
  | .active => s.activeChoice
  | .draining => (s.firstEntry.map Candidate.duty).or (s.firstFreshening.map Candidate.duty)
  | .excursion => s.firstEntry.map Candidate.duty
  | .quiet => none
  | .waking => none

/-! ## Taking a grant (R120) -/

/-- A granted duty leaves the due queue if it is there, becomes RUNNING and begins its list at position 1 (R37).
Its first target check is still to come (R38; log entry 22). -/
def State.grantDuty (s : State) (n : Fin 32) : State :=
  { (s.removeDue n).setDuty n { s.duty n with state := .running } with
    grant := some (.duty n 1)
    engine := .granted }

/-- A granted channel becomes BUSY, the pointer takes its number and the host wait count may rise (R87, R89,
R124); then comes the address check (R89). The target check of a unit in range is still to come (R90; log entry 22). -/
def State.grantChannel (s : State) (c : Fin 16) : State :=
  let u := { s.setChannel c { s.channel c with state := .busy } with
    grant := some (.channel c false)
    channelPointer := c
    hostWait := if s.requests.isEmpty then s.hostWait else s.hostWait + 1 }
  if u.unitInRange c then { u with engine := .granted } else u.unitEnd c .memoryRange

/-- FORCE_SYNC sets the sync-needed mark of the request's target at the grant (R107). -/
def State.forceSync (s : State) (r : Request) : State :=
  if r.forceSync then s.setTarget r.target { s.target r.target with inSync := false } else s

/-- The head of the request queue goes into flight; the host wait count returns to 0 (R107, R124). Its first
target check is still to come (R106, R108; log entry 22). -/
def State.grantHost (s : State) (r : Request) : State :=
  { (s.setRequests s.requests.tail).forceSync r with
    inFlight := some r
    grant := some .host
    hostWait := 0
    engine := .granted }

/-- The chosen requester takes the grant (R120). -/
def State.take (s : State) : Candidate → State
  | .duty n => s.grantDuty n
  | .channel c => s.grantChannel c
  | .host r => s.grantHost r

/-! ## The quiet controller's decisions -/

/-- Nothing holds DRAINING back: no queue entry and no stale duty has an ONLINE target (R165). -/
def State.drained (s : State) : Bool :=
  !s.dueQueue.any (fun n => s.online (s.dutyTarget n))
    && !allDuties.any (fun n => (s.duty n).stale && s.online (s.dutyTarget n))

/-- The broadcast the quiet controller has to send once the bus is free (R165, R168, R169). -/
def State.broadcastDue (s : State) : Option Broadcast :=
  match s.busState with
  | .active => none
  | .draining => if s.drained then some .quiet else none
  | .quiet => none
  | .waking => if s.wakeWaiting then none else some .wake
  | .excursion => if s.firstEntry.isNone then some .quiet else none

/-- An eligible urgent entry whose duty's QUIET_POLICY is WAKE (R167). -/
def State.callsExcursion (s : State) : Bool :=
  s.dueQueue.any (fun n => s.eligible n && s.slackOf n == 0 && (s.duty n).wakes)

/-- In QUIET an eligible urgent WAKE entry starts an excursion (R167). -/
def State.startExcursion (s : State) : State :=
  if s.busState = .quiet ∧ s.callsExcursion then { s with busState := .waking, purpose := .excursion } else s

/-- What happens on a free bus: the arbiter's decision, else the broadcast that is due, else nothing (R118,
R119). From SOFT_RESET to its effects nothing new starts (R128). -/
def State.arbitrate (s : State) : State :=
  if s.busFree ∧ s.softResetPending = false then
    match s.choice with
    | some k => s.take k
    | none =>
      match s.broadcastDue with
      | some b => s.startBroadcast b
      | none => s
  else s

/-- What becomes due on the bus at the end of an event: an excursion starts (R167), the arbiter and the quiet controller
decide (R119, R165, R168, R169), and a head that the grant exposed is disposed of (R106, R107). -/
def State.decisions (s : State) : State := (s.startExcursion.arbitrate).disposeHeads

/-- The end of an event within a row that holds several, an arrival of one edge among them (R75): `settle` without the
first target check, which is an event of its own behind the decision and so behind the row (log entries 19, 22). -/
def State.react (s : State) : State := s.haltDownChannels.disposeHeads.decisions

/-- The end of an event of the running part: waiting channels halt (R84) and heads of the request queue are
disposed of (R106) where their target is not ONLINE, work that an earlier event granted makes its first target
check (R38, R90, R108; log entry 22), an excursion starts (R167), the arbiter and the quiet controller decide
(R119, R165, R168, R169), and a head that the grant exposed is disposed of (R106, R107). That the disposals of an
outcome that quarantines a target stand here, behind the completion record of the request whose frame it was, is the
model's choice (log entry 23). -/
def State.settle (s : State) : State :=
  s.haltDownChannels.disposeHeads.firstCheck.decisions

/-- A trigger arrival at channel `c` from an edge, as an event of its own (R75): its record by R81 to R83, then what the
arrival makes due, a halt (R84) or a grant decision (R119). -/
def State.takeArrival (s : State) (c : Fin 16) : State := (s.arriveAt c).react

end Sys2Proof.Machine
end

