-- ==== Sys2Proof/Machine/Timebase.lean ====
section
/-!
DEFINITION. The timebase (R3 to R5), the wake timer that its marks feed, and the end of the wait of WAKING that
the mark at the latched WAKE_US brings (R168). Microsecond marks are counted exactly; a command that stands for a
later moment (TICK, WAKE_WAIT_END) lets the marks up to that moment pass first (log entry 5). A chip clock is
what a step does on an empty queue (log entry 4).
-/

namespace Sys2Proof.Machine

open Sys2Proof

/-- The tick counter after `n` more microsecond marks: a period ends after as many marks as the TICK_PERIOD in
force when it began, issues a tick, and the next period begins at zero under TICK_PERIOD (R4). -/
def State.countMarks (s : State) (n : Nat) : State :=
  let total := s.tickCount + n
  if total < s.periodInForce.toNat then { s with tickCount := total }
  else
    let beyond := total - s.periodInForce.toNat
    { s with
      tickCount := beyond % s.tickPeriod.toNat
      ticksDue := s.ticksDue + 1 + beyond / s.tickPeriod.toNat
      periodInForce := s.tickPeriod }

/-- The wake timer after `n` more marks: it counts during the wait and stops at the latched WAKE_US (R168). -/
def State.countWake (s : State) (n : Nat) : State :=
  if s.wakeWaiting then { s with wakeTimer := min s.wakeLatched.toNat (s.wakeTimer + n) } else s

/-- `n` microsecond marks pass, `n` at least 1: the prescaler restarts under CLOCK_MHZ, and the marks go to the
tick counter and to the wake timer (R3). -/
def State.passMarks (s : State) (n : Nat) : State :=
  if n = 0 then s else { (s.countMarks n).countWake n with prescaler := 0, prescalerDiv := s.clockMhz }

/-- The end of the wait of WAKING: the wake timer returns to 0 and the bus state follows the purpose (R168, R173). -/
def State.endWait (s : State) : State :=
  let v := { s with wakeTimer := 0, wakeWaiting := false, purpose := .none }
  match s.purpose with
  | .excursion => { v with busState := .excursion }
  | _ => { v with busState := .active, busStateCause := true }

/-- A mark has brought the wake timer to the latched WAKE_US (R168). -/
def State.waitOver (s : State) : Bool := s.wakeWaiting && decide (s.wakeLatched.toNat ≤ s.wakeTimer)

/-- The mark that brings the wake timer to the latched WAKE_US ends the wait (R168). -/
def State.endWaitIfOver (s : State) : State := if s.waitOver then s.endWait else s

/-- One microsecond mark as one event (R3, R4, R168). -/
def State.mark (s : State) : State := (s.passMarks 1).endWaitIfOver.settle

/-- One chip clock of the prescaler (R3): the clock that reaches the divisor in force marks a microsecond. Work
just granted makes its first target check by then (log entry 22). -/
def State.chipClock (s : State) : State :=
  if s.phase = .running then
    if s.prescaler + 1 < s.prescalerDiv.toNat then { s.firstCheck with prescaler := s.prescaler + 1 } else s.mark
  else s

/-- The marks of the rest of the period pass. A wait that ends at one of them before the last ends there, before
the tick; one that ends at the last comes together with the tick (R6, R168; log entry 5). -/
def State.passToTick (s : State) : State :=
  let marks := s.periodInForce.toNat - s.tickCount
  let left := s.wakeLatched.toNat - s.wakeTimer
  if s.wakeWaiting ∧ left < marks then (s.passMarks left).endWait.settle.passMarks (marks - left) else s.passMarks marks

/-- The upkeep engine takes the tick that is due; when none is due, the marks of the rest of the period pass first. -/
def State.takeTick (s : State) : State :=
  let u := if s.ticksDue = 0 then s.passToTick else s
  { u with ticksDue := u.ticksDue - 1 }

/-- The marks up to the latched WAKE_US pass and end the wait (R168). -/
def State.endWakeWait (s : State) : State := (s.passMarks (s.wakeLatched.toNat - s.wakeTimer)).endWait

end Sys2Proof.Machine
end

