-- ==== Sys2Proof/Machine/CommandUnit.lean ====
section
/-!
DEFINITION. The command unit (R180 to R183) and what the owner of each command does when the unit hands it
over: ARM_DUTY (R23), DISARM_DUTY (R25, R26), START_CHANNEL (R80), STOP_CHANNEL (R96), TRIGGER_CHANNEL (R86),
TARGET_ONLINE (R155), TARGET_OFFLINE (R156), SUBMIT (R104), FLUSH_HOST (R112), QUIET_ENTER (R164), QUIET_EXIT
(R170), SOFT_RESET (R183) with the soft-reset effects of every block.
-/

namespace Sys2Proof.Machine

open Sys2Proof

/-- The result codes of R180's table. -/
inductive Result where
  | ok | badCommand | badOperand | wrongState | invalidRecord | noSlot | overrun
  deriving DecidableEq, Repr

def Result.code : Result → Byte
  | .ok => 0
  | .badCommand => 1
  | .badOperand => 2
  | .wrongState => 3
  | .invalidRecord => 4
  | .noSlot => 5
  | .overrun => 6

/-- What an owner answers: a result, or none while it must wait (R180). -/
structure Reply where
  state : State
  result : Option Result
  deriving DecidableEq, Repr

/-! ## Duties -/

/-- ARM_DUTY n (R23). -/
def State.ownArmDuty (s : State) : Reply :=
  let n := dutyIndex s.cmdOperand
  if 31 < s.cmdOperand.toNat then ⟨s, some .badOperand⟩
  else if (s.duty n).active then ⟨s, some .wrongState⟩
  else if s.dutyValid n then ⟨s.setDuty n (s.duty n).arm, some .ok⟩
  else ⟨s, some .invalidRecord⟩

/-- A frame of duty `n`'s run is on the bus (R26). -/
def State.runFrameOnBus (s : State) (n : Fin 32) : Bool :=
  match s.grant with
  | some (.duty m _) => m == n && s.frameOnBus.isSome
  | _ => false

/-- DISARM_DUTY n (R25); a RUNNING duty whose run is between frames is cut at once (R26). -/
def State.disarmDuty (s : State) : Reply :=
  let n := dutyIndex s.cmdOperand
  if 31 < s.cmdOperand.toNat then ⟨s, some .badOperand⟩
  else
    match (s.duty n).state with
    | .idle => ⟨s, some .wrongState⟩
    | .running =>
      if s.runFrameOnBus n then ⟨s.setDuty n { s.duty n with disarmPending := true }, none⟩
      else ⟨s.cutRun n, some .ok⟩
    | .armed => ⟨s.setDuty n (s.duty n).disarm, some .ok⟩
    | .due => ⟨(s.removeDue n).setDuty n (s.duty n).disarm, some .ok⟩
    | .faulted => ⟨s.setDuty n (s.duty n).disarm, some .ok⟩

/-- DISARM_DUTY behind the first target check of work just granted, so that it finds the run under way and
waits (R120). -/
def State.ownDisarmDuty (s : State) : Reply := s.firstCheck.disarmDuty

/-! ## Channels -/

/-- START_CHANNEL c (R80). -/
def State.ownStartChannel (s : State) : Reply :=
  let c := sixteenIndex s.cmdOperand
  let r := s.channel c
  let d := s.descriptor r.firstSlot.toNat
  if 15 < s.cmdOperand.toNat then ⟨s, some .badOperand⟩
  else if r.active then ⟨s, some .wrongState⟩
  else if r.firstSlot.toNat ≤ 47 ∧ d.valid then
    ⟨s.setChannel c { r.load r.firstSlot d with
      pending := 0, haltCause := .none, stopPending := false, state := .waiting }, some .ok⟩
  else ⟨s, some .invalidRecord⟩

/-- STOP_CHANNEL c (R96). -/
def State.ownStopChannel (s : State) : Reply :=
  let c := sixteenIndex s.cmdOperand
  let r := s.channel c
  if 15 < s.cmdOperand.toNat then ⟨s, some .badOperand⟩
  else
    match r.state with
    | .waiting => ⟨s.setChannel c { r with state := .idle, pending := 0 }, some .ok⟩
    | .busy => ⟨s.setChannel c { r with stopPending := true }, none⟩
    | .idle => ⟨s, some .wrongState⟩
    | .done => ⟨s, some .wrongState⟩
    | .halted => ⟨s, some .wrongState⟩

/-- The result of TRIGGER_CHANNEL by what its arrival did (R86). -/
def Arrival.result : Arrival → Result
  | .ignored => .wrongState
  | .counted => .ok
  | .overran => .overrun

/-- TRIGGER_CHANNEL c (R86). -/
def State.ownTriggerChannel (s : State) : Reply :=
  let c := sixteenIndex s.cmdOperand
  if 15 < s.cmdOperand.toNat then ⟨s, some .badOperand⟩
  else ⟨s.arriveAt c, some (s.channel c).arrival.result⟩

/-! ## Targets -/

/-- TARGET_ONLINE t (R155). -/
def State.ownTargetOnline (s : State) : Reply :=
  let t := sixteenIndex s.cmdOperand
  if 15 < s.cmdOperand.toNat then ⟨s, some .badOperand⟩
  else if s.online t then ⟨s, some .wrongState⟩
  else if (s.target t).valid then ⟨s.setTarget t (s.target t).bringOnline, some .ok⟩
  else ⟨s, some .invalidRecord⟩

/-- A frame to target `t` is on the bus (R156). -/
def State.frameTo (s : State) (t : Fin 16) : Bool :=
  match s.frameOnBus with
  | some f => f.target == t
  | none => false

/-- TARGET_OFFLINE t (R156). -/
def State.targetOffline (s : State) : Reply :=
  let t := sixteenIndex s.cmdOperand
  if 15 < s.cmdOperand.toNat then ⟨s, some .badOperand⟩
  else
    match (s.target t).state with
    | .offline => ⟨s, some .wrongState⟩
    | .quarantined => ⟨s.setTarget t { s.target t with state := .offline }, some .ok⟩
    | .online =>
      if s.frameTo t then ⟨s.setTarget t { s.target t with offlinePending := true }, none⟩
      else ⟨s.setTarget t { s.target t with state := .offline }, some .ok⟩

/-- The state in which an access is taken that comes next behind a grant decision: before the first target check of
the granted work, or behind it, which then has let the first frame start. A free value decides (R38, R90, R106,
R108, R120, R128, R130; log entry 22). -/
def State.besideCheck (s : State) : State :=
  let u := { s with freeCount := s.freeCount + 1 }
  if Config.commandBeforeCheck s.freeCount then u else u.firstCheck

/-- The state in which an access is taken that only the start of the granted work's first frame concerns. -/
def State.atAccess (s : State) : State := if s.engine = .granted then s.besideCheck else s

/-- The state in which the target table takes TARGET_OFFLINE: behind the decision that granted work on the same target,
either order with the work's first target check. -/
def State.atOffline (s : State) : State :=
  if s.engine = .granted ∧ s.cmdOperand.toNat ≤ 15 ∧ s.workTarget = some (sixteenIndex s.cmdOperand) then s.besideCheck
  else s

/-- TARGET_OFFLINE t at its moment (R156, R120). -/
def State.ownTargetOffline (s : State) : Reply := s.atOffline.targetOffline

/-! ## Host requests -/

/-- SUBMIT (R104). -/
def State.ownSubmit (s : State) : Reply :=
  if s.stagingValid then
    if s.slotsFree = 0 then ⟨s, some .noSlot⟩
    else ⟨{ s with requests := s.requests ++ [s.stagedRequest] }, some .ok⟩
  else ⟨s, some .badOperand⟩

/-- FLUSH_HOST (R112). -/
def State.ownFlushHost (s : State) : Reply := ⟨s.flushRequests, some .ok⟩

/-! ## Quiet operation -/

/-- QUIET_ENTER (R164). -/
def State.ownQuietEnter (s : State) : Reply :=
  if s.busState = .active then ⟨{ s with busState := .draining }, some .ok⟩ else ⟨s, some .wrongState⟩

/-- QUIET_EXIT while a QUIET broadcast is on the bus: the purpose becomes EXIT (R170). -/
def State.exitBehindBroadcast (s : State) : Reply :=
  if s.purpose = .exit then ⟨s, some .wrongState⟩ else ⟨{ s with purpose := .exit }, some .ok⟩

/-- QUIET_EXIT (R170). -/
def State.ownQuietExit (s : State) : Reply :=
  let broadcasting := s.broadcastOnBus = some .quiet
  match s.busState with
  | .active => ⟨s, some .wrongState⟩
  | .draining =>
    if broadcasting then s.exitBehindBroadcast else ⟨{ s with busState := .active }, some .ok⟩
  | .quiet => ⟨{ s.markStale with busState := .waking, purpose := .exit }, some .ok⟩
  | .waking =>
    if s.purpose = .exit then ⟨s, some .wrongState⟩ else ⟨{ s.markStale with purpose := .exit }, some .ok⟩
  | .excursion =>
    if broadcasting then s.exitBehindBroadcast
    else ⟨{ s.markStale with busState := .active, purpose := .none, busStateCause := true }, some .ok⟩

/-! ## Soft reset -/

/-- The quiet controller's soft-reset effect by the bus state it finds (R175). -/
def State.softResetQuiet (s : State) : State :=
  match s.busState with
  | .active => s
  | .draining => { s with busState := .active, purpose := .none }
  | .excursion => { s with busState := .active, purpose := .none }
  | .quiet => { s with busState := .waking, purpose := .exit }
  | .waking => { s with purpose := .exit }

/-- The bus engine after a soft reset: the work between frames ends with its grant, and the gap begins (R117,
R128). -/
def State.softResetBus (s : State) : State :=
  match s.engine with
  | .interGap _ => s.endGrant
  | .granted => s.endGrant
  | _ => { s with grant := none }

/-- The host window's own soft-reset effects on its sticky causes (R183, step 2). -/
def State.softResetWindow (s : State) : State :=
  { s with
    commandDone := false
    busStateCause := false
    guardCause := false
    collisionCause := false
    readyCause := false }

/-- The soft-reset effects of every block, in one event (R183; R29, R101, R115, R161, R128, R175). -/
def State.softResetEffects (s : State) : State :=
  let u := ((s.softResetRequests.mapDuties DutyRec.softReset).mapChannels ChannelRec.softReset).mapTargets
    TargetRec.clearNotices
  { u.softResetBus.softResetQuiet.softResetWindow with dueQueue := [], channelPointer := 15, hostWait := 0 }

/-- SOFT_RESET (R183): deferred while a frame or a broadcast is on the bus, else its effects at once. -/
def State.softReset (s : State) : Reply :=
  if s.frameOnBus.isSome || s.broadcastOnBus.isSome then ⟨s, none⟩ else ⟨s.softResetEffects, some .ok⟩

/-- SOFT_RESET at its moment: behind a grant decision, either order with the work's first target check. Before it the
work stands between frames and ends at once (R128; log entry 22). -/
def State.ownSoftReset (s : State) : Reply := s.atAccess.softReset

/-! ## Taking a command -/

/-- A code that names no command changes no block (R180). -/
def State.ownBadCommand (s : State) : Reply := ⟨s, some .badCommand⟩

/-- CMD_RESULT, the unit state and COMMAND_DONE after the owner has answered (R180). -/
def Reply.conclude (r : Reply) : State :=
  match r.result with
  | some x => { r.state with cmdResult := x.code, commandDone := true }
  | none => { r.state with unit := .pending, cmdResult := 0xFF }

/-- A host write of `code` to CMD_CODE whose command `owner` decides: ignored until the clear ends (R68), a
collision while the unit is PENDING (R181), else taken (R180). -/
def State.command (s : State) (code : Byte) (owner : State → Reply) : State :=
  if s.phase ≠ .running then s
  else if s.unit = .pending then { s with collisionCause := true }
  else (owner { s with cmdCode := code }).conclude.settle

/-- The owner that R180's table names for a code. -/
def ownerOf (code : Byte) : State → Reply :=
  if code = 0x01 then State.ownArmDuty
  else if code = 0x02 then State.ownDisarmDuty
  else if code = 0x10 then State.ownStartChannel
  else if code = 0x11 then State.ownStopChannel
  else if code = 0x12 then State.ownTriggerChannel
  else if code = 0x20 then State.ownTargetOnline
  else if code = 0x21 then State.ownTargetOffline
  else if code = 0x30 then State.ownSubmit
  else if code = 0x31 then State.ownFlushHost
  else if code = 0x40 then State.ownQuietEnter
  else if code = 0x41 then State.ownQuietExit
  else if code = 0x7F then State.ownSoftReset
  else State.ownBadCommand

/-- A host write of any code to CMD_CODE (R180, R181). -/
def State.writeCommand (s : State) (code : Byte) : State := s.command code (ownerOf code)

end Sys2Proof.Machine
end

