-- ==== Sys2Proof/Machine/Window.lean ====
section
/-!
DEFINITION. The host window (chapters 3 and 10): 16-bit registers with their read latches and write holds
(R177, R178), what a read of each offset returns (R176, R179), TM_DATA (R58, R59) with GUARD (R63), the race of
a host write with a frame that drives data-area bytes (R65), NOTICE_MEMBER (R185), CPL_POP (R111), the setting
registers, and one read and one write of the window over all 64 offsets, before (R68) and after the clear.
-/

namespace Sys2Proof.Machine

open Sys2Proof

/-! ## Sixteen-bit registers (R177, R178) -/

/-- The place of a register's read latch. -/
def latchIndex : Reg16 → Fin 9
  | .id => 0
  | .tmPtr => 1
  | .guardAddr => 2
  | .noticeCause => 3
  | .intCause => 4
  | .intEnable => 5
  | .tickPeriod => 6
  | .wakeUs => 7
  | .lineEdge => 8

/-- The place of a register's write hold. -/
def holdIndex : WReg16 → Fin 6
  | .tmPtr => 0
  | .intCause => 1
  | .intEnable => 2
  | .tickPeriod => 3
  | .wakeUs => 4
  | .lineEdge => 5

/-- A writable 16-bit register as a register. -/
def holdRegister : WReg16 → Reg16
  | .tmPtr => .tmPtr
  | .intCause => .intCause
  | .intEnable => .intEnable
  | .tickPeriod => .tickPeriod
  | .wakeUs => .wakeUs
  | .lineEdge => .lineEdge

/-- The offset of a register's low byte (R176). -/
def lowOffset : Reg16 → BitVec 6
  | .id => 0x00
  | .tmPtr => 0x08
  | .guardAddr => 0x0C
  | .noticeCause => 0x21
  | .intCause => 0x24
  | .intEnable => 0x26
  | .tickPeriod => 0x2A
  | .wakeUs => 0x2C
  | .lineEdge => 0x30

/-- The value of a 16-bit register as it stands (R57, R63, R177, R179, R186). -/
def State.half (s : State) : Reg16 → Half
  | .id => Config.idValue
  | .tmPtr => s.tmPtr.setWidth 16
  | .guardAddr => s.guardAddr.setWidth 16
  | .noticeCause => s.noticeCause
  | .intCause => s.intCause
  | .intEnable => s.intEnable
  | .tickPeriod => s.tickPeriod
  | .wakeUs => s.wakeUs
  | .lineEdge => s.lineEdge

def State.latch (s : State) (r : Reg16) : Option Byte := s.readLatch[latchIndex r]
def State.hold (s : State) (w : WReg16) : Option Byte := s.writeHold[holdIndex w]
def State.setLatch (s : State) (r : Reg16) (b : Option Byte) : State :=
  { s with readLatch := s.readLatch.set (latchIndex r) b }
def State.setHold (s : State) (w : WReg16) (b : Option Byte) : State :=
  { s with writeHold := s.writeHold.set (holdIndex w) b }

/-- A host read returns `b`: the byte on HD0 ... HD7. -/
def State.answer (s : State) (b : Byte) : State := { s with hostData := b }

/-- A read of a low byte returns it and loads the read latch with the high byte of the same value (R177). -/
def State.readLow (s : State) (r : Reg16) : State :=
  (s.answer (lowByte (s.half r))).setLatch r (some (highByte (s.half r)))

/-- A read of a high byte returns the latched byte and empties the latch, or the high byte as it stands (R177). -/
def State.readHigh (s : State) (r : Reg16) : State :=
  match s.latch r with
  | some b => (s.answer b).setLatch r none
  | none => s.answer (highByte (s.half r))

/-- A write of a low byte places it in the write hold (R178). -/
def State.writeLow (s : State) (w : WReg16) (v : Byte) : State := s.setHold w (some v)

/-- The 16-bit value that a write of the high byte offers: joined with the held byte, or with the register's
current low byte when the hold is empty (R178). -/
def State.joined (s : State) (w : WReg16) (high : Byte) : Half :=
  high ++ (s.hold w).getD (lowByte (s.half (holdRegister w)))

/-- The owner checks and takes the 16-bit value under its own rule (R57, R186, R187, R4, R163, R73). -/
def State.offer (s : State) (w : WReg16) (v : Half) : State :=
  match w with
  | .tmPtr => { s with tmPtr := v.setWidth 13 }
  | .intCause => s.clearSticky v
  | .intEnable => { s with intEnable := v &&& 0x7F }
  | .tickPeriod => if 10 ≤ v.toNat then { s with tickPeriod := v } else s
  | .wakeUs => if 1 ≤ v.toNat ∧ v.toNat ≤ 4095 then { s with wakeUs := v } else s
  | .lineEdge => { s with lineEdge := v }

/-- A write of a high byte: the hold empties and the joined value goes to the owner (R178). -/
def State.writeHigh (s : State) (w : WReg16) (high : Byte) : State :=
  (s.setHold w none).offer w (s.joined w high)

/-! ## TM_DATA (R58, R59, R63, R65) -/

/-- A read of TM_DATA (R58). -/
def State.readTableData (s : State) : State :=
  { s.answer (s.tableByte s.tmPtr) with tmPtr := s.tmPtr + 1 }

/-- A write that record protection discards (R63). -/
def State.guardWrite (s : State) (a : BitVec 13) : State :=
  { s with guardCause := true, guardAddr := if s.guardCause then s.guardAddr else a }

/-- The data-area index that address `a` has in the WRITE attempt `t` on the bus, if the attempt sends that byte. -/
def Attempt.sends (t : Attempt) (a : Nat) : Option Nat :=
  match t.frame.kind, t.frame.path with
  | .write, .area b => if b ≤ a ∧ a < b + t.frame.length then some (a - b) else none
  | _, _ => none

/-- A taken write to a data-area byte that the WRITE attempt on the bus sends: when the byte has not been driven
yet it is sent as now written (R65). How many bytes have been driven is a free value, never fewer than at an
earlier moment of the attempt. -/
def State.raceWrite (s : State) (a : Nat) (v : Byte) : State :=
  match s.engine with
  | .attempt t =>
    match t.sends a with
    | some i =>
      let done := max t.driven (Config.bytesDriven s.freeCount)
      let bytes := if i < done then t.sent else t.sent.set i v
      { s with engine := .attempt { t with sent := bytes, driven := done }, freeCount := s.freeCount + 1 }
    | none => s
  | _ => s

/-- A write of TM_DATA: record protection takes or discards the byte, and the pointer advances (R59). It comes
behind the first target check of work just granted, whose frame it may race (R65; log entry 22). -/
def State.writeTableData (s : State) (v : Byte) : State :=
  let w := s.firstCheck
  let u := if w.takesWrite s.tmPtr then (w.putHostByte s.tmPtr v).raceWrite s.tmPtr.toNat v else w.guardWrite s.tmPtr
  { u with tmPtr := s.tmPtr + 1 }

/-! ## NOTICE_MEMBER (R185) and CPL_POP (R111) -/

/-- A read of NOTICE_MEMBER (R185); it also empties the read latch of NOTICE_CAUSE (R177). -/
def State.readNoticeMember (s : State) : State :=
  match s.noticeSet with
  | [] => ({ s with noticeCause := 0 }.answer 0xFF).setLatch .noticeCause none
  | m :: _ =>
    (({ s.collectMember m with noticeCause := memberKind m ++ s.memberCauses m }).answer (BitVec.ofNat 8 m)).setLatch
      .noticeCause none

/-- A write of CPL_POP (R111). -/
def State.popCompletion (s : State) : State := { s with completions := s.completions.tail }

/-! ## Setting registers of one byte -/

/-- A write of CLOCK_MHZ (R3). -/
def State.writeClock (s : State) (v : Byte) : State :=
  if 8 ≤ v.toNat ∧ v.toNat ≤ 32 then { s with clockMhz := v } else s

/-- A write of BUS_DIV (R130). Behind a grant decision, either order with the first target check, with which the
work's first frame latches the value (log entry 22). -/
def State.writeBusDiv (s : State) (v : Byte) : State :=
  if 2 ≤ v.toNat ∧ v.toNat ≤ 64 then { s.atAccess with busDiv := v } else s

/-- A write of PULLIN (R52); enabling it may let the arbiter decide (R119). -/
def State.writePullin (s : State) (v : Byte) : State := { s with pullin := v.getLsbD 0 }.settle

/-- A write of a staging byte (R102). -/
def State.writeStaging (s : State) (k : Fin 8) (v : Byte) : State := { s with staging := s.staging.set k v }

/-! ## The whole window (R176) -/

/-- What a read of offset `off` does while the part runs (R176). -/
def State.readRunning (s : State) (off : BitVec 6) : State :=
  match off.toNat with
  | 0x00 => s.readLow .id
  | 0x01 => s.readHigh .id
  | 0x02 => s.answer s.status
  | 0x04 => s.answer s.cmdOperand
  | 0x05 => s.answer s.cmdCode
  | 0x06 => s.answer s.cmdResult
  | 0x08 => s.readLow .tmPtr
  | 0x09 => s.readHigh .tmPtr
  | 0x0A => s.readTableData
  | 0x0C => s.readLow .guardAddr
  | 0x0D => s.readHigh .guardAddr
  | 0x10 => s.answer s.staging[0]
  | 0x11 => s.answer s.staging[1]
  | 0x12 => s.answer s.staging[2]
  | 0x13 => s.answer s.staging[3]
  | 0x14 => s.answer s.staging[4]
  | 0x15 => s.answer s.staging[5]
  | 0x16 => s.answer s.staging[6]
  | 0x17 => s.answer s.staging[7]
  | 0x18 => s.answer (s.completionHead 0)
  | 0x19 => s.answer (s.completionHead 1)
  | 0x1A => s.answer (s.completionHead 2)
  | 0x1B => s.answer (s.completionHead 3)
  | 0x1D => s.answer (BitVec.ofNat 8 s.completions.length)
  | 0x1E => s.answer (BitVec.ofNat 8 s.slotsFree)
  | 0x20 => s.readNoticeMember
  | 0x21 => s.readLow .noticeCause
  | 0x22 => s.readHigh .noticeCause
  | 0x24 => s.readLow .intCause
  | 0x25 => s.readHigh .intCause
  | 0x26 => s.readLow .intEnable
  | 0x27 => s.readHigh .intEnable
  | 0x28 => s.answer s.clockMhz
  | 0x2A => s.readLow .tickPeriod
  | 0x2B => s.readHigh .tickPeriod
  | 0x2C => s.readLow .wakeUs
  | 0x2D => s.readHigh .wakeUs
  | 0x2E => s.answer s.busDiv
  | 0x2F => s.answer (if s.pullin then 1 else 0)
  | 0x30 => s.readLow .lineEdge
  | 0x31 => s.readHigh .lineEdge
  | 0x32 => s.answer s.lineLevel
  | _ => s.answer 0

/-- What a read returns while RESET# is low or the clear is in progress, without side effect (R68, R179). -/
def State.readInReset (s : State) (off : BitVec 6) : State :=
  match off.toNat with
  | 0x00 => s.answer (lowByte Config.idValue)
  | 0x01 => s.answer (highByte Config.idValue)
  | 0x02 => s.answer s.status
  | _ => s.answer 0

/-- A host read of offset `off`. -/
def State.windowRead (s : State) (off : BitVec 6) : State :=
  if s.phase = .running then s.readRunning off else s.readInReset off

/-- What a write of offset `off` does while the part runs (R176). -/
def State.writeRunning (s : State) (off : BitVec 6) (v : Byte) : State :=
  match off.toNat with
  | 0x04 => { s with cmdOperand := v }
  | 0x05 => s.writeCommand v
  | 0x08 => s.writeLow .tmPtr v
  | 0x09 => s.writeHigh .tmPtr v
  | 0x0A => s.writeTableData v
  | 0x10 => s.writeStaging 0 v
  | 0x11 => s.writeStaging 1 v
  | 0x12 => s.writeStaging 2 v
  | 0x13 => s.writeStaging 3 v
  | 0x14 => s.writeStaging 4 v
  | 0x15 => s.writeStaging 5 v
  | 0x16 => s.writeStaging 6 v
  | 0x17 => s.writeStaging 7 v
  | 0x1C => s.popCompletion
  | 0x24 => s.writeLow .intCause v
  | 0x25 => s.writeHigh .intCause v
  | 0x26 => s.writeLow .intEnable v
  | 0x27 => s.writeHigh .intEnable v
  | 0x28 => s.writeClock v
  | 0x2A => s.writeLow .tickPeriod v
  | 0x2B => s.writeHigh .tickPeriod v
  | 0x2C => s.writeLow .wakeUs v
  | 0x2D => s.writeHigh .wakeUs v
  | 0x2E => s.writeBusDiv v
  | 0x2F => s.writePullin v
  | 0x30 => s.writeLow .lineEdge v
  | 0x31 => s.writeHigh .lineEdge v
  | _ => s

/-- A host write of `v` to offset `off`: ignored until the clear ends (R68). -/
def State.windowWrite (s : State) (off : BitVec 6) (v : Byte) : State :=
  if s.phase = .running then s.writeRunning off v else s

end Sys2Proof.Machine
end

