-- ==== Sys2Proof/Machine/BusMeanings.lean ====
section
/-!
DEFINITION. The meanings of the bus engine's rows: GAP_END (R119), INTER_FRAME_GAP_END (R142), READY_TIMEOUT
(R140), ATTEMPT_END (R141, R146), RETRY_GAP_END (R141) and RUN_CUT (R26).
-/

namespace Sys2Proof.Machine

open Sys2Proof

/-- GAP_END (R119): the bus becomes free, and the arbiter or the quiet controller decides. -/
def execGapEnd (s : State) : Host.Outcome State Fault Refusal :=
  if s.engine = .gap then .next { s with engine := .free }.settle else noEvent s

/-- The work that holds the grant goes on after the idle gap: the target check and its next frame (R142). No
frame of a run that is to be cut starts (R26). -/
def State.continueGrant (s : State) : State :=
  match s.grant with
  | some (.duty n _) => if (s.duty n).disarmPending then (s.cutRun n).completeCommand else s.startWork
  | _ => s.startWork

/-- INTER_FRAME_GAP_END (R142). Behind the frame that a SOFT_RESET waited for no further frame starts (R128). -/
def execInterFrameGapEnd (s : State) : Host.Outcome State Fault Refusal :=
  match s.engine with
  | .interGap _ => if s.softResetPending then noEvent s else .next s.continueGrant.settle
  | _ => noEvent s

/-- A data slot of the attempt can time out: a WRITE or READ attempt to a HANDSHAKE target (R136, R139). -/
def Attempt.handshakes (a : Attempt) : Bool := a.frame.kind != .sync && a.profile == 1

/-- READY_TIMEOUT (R140), in the attempt that the first target check has let start. -/
def execReadyTimeout (s : State) : Host.Outcome State Fault Refusal :=
  let u := s.firstCheck
  match u.engine with
  | .attempt a => if a.handshakes then .next (u.attemptOver a .readyTimeout []).settle else noEvent u
  | _ => noEvent u

/-- ATTEMPT_END (R141, R146), of the attempt that the first target check has let start. -/
def execAttemptEnd (status : Sample) (data : List Sample) (s : State) : Host.Outcome State Fault Refusal :=
  let u := s.firstCheck
  match u.engine with
  | .attempt a => .next (u.attemptOver a (attemptOutcome a.frame status data) data).settle
  | _ => noEvent u

/-- RETRY_GAP_END (R141): the next attempt of the same frame starts from its header. -/
def execRetryGapEnd (s : State) : Host.Outcome State Fault Refusal :=
  match s.engine with
  | .retryGap a => .next { s with engine := .attempt (s.newAttempt a.frame (a.count + 1)) }
  | _ => noEvent s

/-- The duty whose run is to be cut: it holds the grant with DISARM_PENDING set and no frame on the bus (R26). -/
def State.cutDue (s : State) : Option (Fin 32) :=
  match s.grant, s.frameOnBus with
  | some (.duty n _), none => if (s.duty n).disarmPending then some n else none
  | _, _ => none

/-- RUN_CUT (R26): the duty becomes IDLE uncounted and the pending DISARM_DUTY completes with OK. -/
def execRunCut (s : State) : Host.Outcome State Fault Refusal :=
  match s.cutDue with
  | some n => .next (s.cutRun n).completeCommand.settle
  | none => noEvent s

end Sys2Proof.Machine
end

