-- ==== Sys2Proof/Machine/CommandMeanings.lean ====
section
/-!
DEFINITION. The meanings of the command rows: a host write of the row's code to CMD_CODE (R180 to R183). In
every one a write while the unit is PENDING collides (R181) and a write before the clear ends is ignored (R68).
-/

namespace Sys2Proof.Machine

open Sys2Proof

/-- ARM_DUTY (R23). -/
def execArmDuty (s : State) : Host.Outcome State Fault Refusal := .next (s.command 0x01 State.ownArmDuty)

/-- DISARM_DUTY (R25). -/
def execDisarmDuty (s : State) : Host.Outcome State Fault Refusal := .next (s.command 0x02 State.ownDisarmDuty)

/-- START_CHANNEL (R80). -/
def execStartChannel (s : State) : Host.Outcome State Fault Refusal := .next (s.command 0x10 State.ownStartChannel)

/-- STOP_CHANNEL (R96). -/
def execStopChannel (s : State) : Host.Outcome State Fault Refusal := .next (s.command 0x11 State.ownStopChannel)

/-- TRIGGER_CHANNEL (R86). -/
def execTriggerChannel (s : State) : Host.Outcome State Fault Refusal :=
  .next (s.command 0x12 State.ownTriggerChannel)

/-- TARGET_ONLINE (R155). -/
def execTargetOnline (s : State) : Host.Outcome State Fault Refusal := .next (s.command 0x20 State.ownTargetOnline)

/-- TARGET_OFFLINE (R156). -/
def execTargetOffline (s : State) : Host.Outcome State Fault Refusal := .next (s.command 0x21 State.ownTargetOffline)

/-- SUBMIT (R104). -/
def execSubmit (s : State) : Host.Outcome State Fault Refusal := .next (s.command 0x30 State.ownSubmit)

/-- FLUSH_HOST (R112). -/
def execFlushHost (s : State) : Host.Outcome State Fault Refusal := .next (s.command 0x31 State.ownFlushHost)

/-- QUIET_ENTER (R164). -/
def execQuietEnter (s : State) : Host.Outcome State Fault Refusal := .next (s.command 0x40 State.ownQuietEnter)

/-- QUIET_EXIT (R170). -/
def execQuietExit (s : State) : Host.Outcome State Fault Refusal := .next (s.command 0x41 State.ownQuietExit)

/-- SOFT_RESET (R183). -/
def execSoftReset (s : State) : Host.Outcome State Fault Refusal := .next (s.command 0x7F State.ownSoftReset)

/-- BAD_COMMAND (R180): a write of CMD_CODE with a code that names no command. -/
def execBadCommand (code : Byte) (s : State) : Host.Outcome State Fault Refusal := .next (s.writeCommand code)

/-- COLLISION (R181): a write of CMD_CODE while the unit is PENDING. -/
def execCollision (code : Byte) (s : State) : Host.Outcome State Fault Refusal := .next (s.writeCommand code)

end Sys2Proof.Machine
end

