-- ==== Sys2Proof/Machine/QuietMeanings.lean ====
section
/-!
DEFINITION. The meanings of the quiet controller's rows: QUIET_BROADCAST_END (R166), WAKE_BROADCAST_END and
WAKE_WAIT_END (R168).
-/

namespace Sys2Proof.Machine

open Sys2Proof

/-- The end of a QUIET broadcast: the gap begins, and the bus state follows the purpose (R166). -/
def State.quietBroadcastEnd (s : State) : State :=
  let u := { s with engine := .gap }
  match s.purpose with
  | .exit => { u.markStale with busState := .waking }
  | _ => { u with busState := .quiet, busStateCause := true }

/-- QUIET_BROADCAST_END (R166). -/
def execQuietBroadcastEnd (s : State) : Host.Outcome State Fault Refusal :=
  if s.engine = .broadcast .quiet then .next s.quietBroadcastEnd.settle else noEvent s

/-- WAKE_BROADCAST_END (R168): WAKE_US is latched and the wait begins. -/
def execWakeBroadcastEnd (s : State) : Host.Outcome State Fault Refusal :=
  if s.engine = .broadcast .wake then
    .next { s with engine := .gap, wakeLatched := s.wakeUs, wakeTimer := 0, wakeWaiting := true }
  else noEvent s

/-- WAKE_WAIT_END (R168). -/
def execWakeWaitEnd (s : State) : Host.Outcome State Fault Refusal :=
  if s.wakeWaiting then .next s.endWakeWait.settle else noEvent s

end Sys2Proof.Machine
end

