-- ==== Sys2Proof/Machine/ResetMeanings.lean ====
section
/-!
DEFINITION. The meanings of the reset rows: FULL_RESET, RESET_RELEASE, CLEAR_END, ACCESS_DURING_CLEAR,
RESET_BROADCAST, RESET_BROADCAST_END (R67 to R69, R147 to R149) and SOFT_RESET_EFFECTS (R183).
-/

namespace Sys2Proof.Machine

open Sys2Proof

/-- The state a full reset leaves: every register, queue, counter and mode at its full-reset value, the frame
or broadcast on the bus abandoned, no outcome reported (R5, R28, R100, R115, R127, R148, R160, R174, R188). The
notices are empty at once (R188); the other bytes of table memory wait for the clear, which nobody reads before
(R67). The model's own fields are kept. -/
def State.fullReset (s : State) : State :=
  let u := { State.reset with
    targets := s.targets
    channels := s.channels
    duties := s.duties
    mem := s.mem
    hostData := s.hostData
    freeCount := s.freeCount
    pending := s.pending }
  ((u.mapTargets TargetRec.clearNotices).mapChannels ChannelRec.clearNotices).mapDuties DutyRec.clearNotices

/-- The state when the clear ends: every byte of table memory 0, READY set, the timebase at zero, the filtered
levels loaded from the lines, and the idle cycle before the RESET broadcast begun (R69, R74, R149). -/
def State.cleared (s : State) (lines : Byte) : State :=
  { State.reset with
    phase := .running
    readyCause := true
    lineLevel := lines
    engine := .resetWait
    hostData := s.hostData
    freeCount := s.freeCount
    pending := s.pending }

/-- FULL_RESET (R67, R148). -/
def execFullReset (s : State) : Host.Outcome State Fault Refusal := .next s.fullReset

/-- RESET_RELEASE (R67): the clear begins. -/
def execResetRelease (s : State) : Host.Outcome State Fault Refusal :=
  if s.phase = .inReset then .next { s with phase := .clearing } else noEvent s

/-- CLEAR_END (R69). -/
def execClearEnd (lines : Byte) (s : State) : Host.Outcome State Fault Refusal :=
  if s.phase = .clearing then .next (s.cleared lines) else noEvent s

/-- ACCESS_DURING_CLEAR (R68): a host access. After the clear the same access acts as R176 gives. -/
def execAccessDuringClear (access : Access) (s : State) : Host.Outcome State Fault Refusal :=
  match access with
  | .read offset => .next (s.windowRead offset)
  | .write offset value => .next (s.windowWrite offset value)

/-- RESET_BROADCAST (R149): the bus engine starts the RESET broadcast after the idle cycle. -/
def execResetBroadcast (s : State) : Host.Outcome State Fault Refusal :=
  if s.engine = .resetWait then .next (s.startBroadcast .reset) else noEvent s

/-- RESET_BROADCAST_END (R147): the arbiter's gap begins. -/
def execResetBroadcastEnd (s : State) : Host.Outcome State Fault Refusal :=
  if s.engine = .broadcast .reset then .next { s with engine := .gap } else noEvent s

/-- SOFT_RESET_EFFECTS (R183): the frame or broadcast that a SOFT_RESET waited for has ended. -/
def execSoftResetEffects (s : State) : Host.Outcome State Fault Refusal :=
  if s.softResetPending ∧ s.frameOnBus = none ∧ s.broadcastOnBus = none then
    .next s.softResetEffects.completeCommand.settle
  else noEvent s

end Sys2Proof.Machine
end

