-- ==== Sys2Proof/Machine/TimeMeanings.lean ====
section
/-!
DEFINITION. The meanings of the rows that time and the trigger pins bring: MICROSECOND_MARK (R3), TICK (R4,
R15), EXPIRY (R7), TRIGGER_LINE_EDGE (R74, R75).
-/

namespace Sys2Proof.Machine

open Sys2Proof

/-- MICROSECOND_MARK (R3, R168). No mark is made before the clear ends (R5). -/
def execMicrosecondMark (s : State) : Host.Outcome State Fault Refusal :=
  if s.phase = .running then .next s.mark else noEvent s

/-- TICK (R4, R15): the upkeep engine takes one tick as one whole event. A wait whose last mark is the tick's own
ends behind the tick (R6, R168; log entry 5). -/
def execTick (s : State) : Host.Outcome State Fault Refusal :=
  if s.phase = .running then .next s.takeTick.upkeepTick.endWaitIfOver.settle else noEvent s

/-- EXPIRY (R7): the timer of duty `n`, decremented to 0, reloads and the expiry acts. A stopped or paused timer
has no expiry (R6, R14, R22). -/
def execExpiry (n : Fin 32) (s : State) : Host.Outcome State Fault Refusal :=
  if s.phase = .running ∧ (s.duty n).active ∧ (s.duty n).paused s.busState = false then
    .next (s.expireDuty n).settle
  else noEvent s

/-- The filtered level of line `k` becomes `level` (R74). -/
def State.setLine (s : State) (k : Fin 8) (level : Bool) : State :=
  { s with
    lineLevel := if level then s.lineLevel ||| ((1 : Byte) <<< k.val) else s.lineLevel &&& ~~~((1 : Byte) <<< k.val) }

/-- The channels that listen to line `k`, each once, in the order in which they take the arrival of one edge: a free value
places them (R75; log entry 19). -/
def State.arrivalOrder (s : State) (k : Fin 8) : List (Fin 16) :=
  (allSixteen.filter (fun c => (s.channel c).listens k)).insertionSort
    (fun a b => Config.arrivalPlace s.freeCount a ≤ Config.arrivalPlace s.freeCount b)

/-- The arrivals of an edge of line `k`: behind the end of the change of level, each channel that listens takes the arrival
as an event of its own (R75), so that a free bus is decided at the first that presents a candidate (R119). -/
def State.edgeArrivals (s : State) (k : Fin 8) : State :=
  (s.arrivalOrder k).foldl State.takeArrival { s with freeCount := s.freeCount + 1 }.settle

/-- TRIGGER_LINE_EDGE (R74, R75): an edge whose kind matches the selection is an arrival at every channel that listens.
Before the clear ends, and where the level does not change, there is no edge (R68, R74). -/
def execTriggerLineEdge (k : Fin 8) (level : Bool) (s : State) : Host.Outcome State Fault Refusal :=
  if s.phase = .running ∧ s.lineLevel.getLsbD k.val ≠ level then
    let u := s.setLine k level
    .next (if s.edgeSelected k level then u.edgeArrivals k else u.settle)
  else noEvent s

end Sys2Proof.Machine
end

