-- ==== Sys2Proof/Machine/WindowMeanings.lean ====
section
/-!
DEFINITION. The meanings of the host window's rows: one read or one write of the row's offset (R176). Before
the clear ends each acts as R68 gives.
-/

namespace Sys2Proof.Machine

open Sys2Proof

/-- TM_PTR_WRITE (R57). -/
def execTmPtrWrite (high : Byte) (s : State) : Host.Outcome State Fault Refusal := .next (s.windowWrite 0x09 high)

/-- TM_DATA_READ (R58). -/
def execTmDataRead (s : State) : Host.Outcome State Fault Refusal := .next (s.windowRead 0x0A)

/-- TM_DATA_WRITE (R59). -/
def execTmDataWrite (value : Byte) (s : State) : Host.Outcome State Fault Refusal := .next (s.windowWrite 0x0A value)

/-- NOTICE_MEMBER_READ (R185). -/
def execNoticeMemberRead (s : State) : Host.Outcome State Fault Refusal := .next (s.windowRead 0x20)

/-- CPL_POP (R111). -/
def execCplPop (value : Byte) (s : State) : Host.Outcome State Fault Refusal := .next (s.windowWrite 0x1C value)

/-- INT_CAUSE_WRITE (R186). -/
def execIntCauseWrite (high : Byte) (s : State) : Host.Outcome State Fault Refusal := .next (s.windowWrite 0x25 high)

/-- INT_ENABLE_WRITE (R187). -/
def execIntEnableWrite (high : Byte) (s : State) : Host.Outcome State Fault Refusal := .next (s.windowWrite 0x27 high)

/-- CLOCK_MHZ_WRITE (R3). -/
def execClockMhzWrite (value : Byte) (s : State) : Host.Outcome State Fault Refusal :=
  .next (s.windowWrite 0x28 value)

/-- TICK_PERIOD_WRITE (R4). -/
def execTickPeriodWrite (high : Byte) (s : State) : Host.Outcome State Fault Refusal :=
  .next (s.windowWrite 0x2B high)

/-- WAKE_US_WRITE (R163). -/
def execWakeUsWrite (high : Byte) (s : State) : Host.Outcome State Fault Refusal := .next (s.windowWrite 0x2D high)

/-- BUS_DIV_WRITE (R130). -/
def execBusDivWrite (value : Byte) (s : State) : Host.Outcome State Fault Refusal := .next (s.windowWrite 0x2E value)

/-- PULLIN_WRITE (R52). -/
def execPullinWrite (value : Byte) (s : State) : Host.Outcome State Fault Refusal := .next (s.windowWrite 0x2F value)

/-- LINE_EDGE_WRITE (R73). -/
def execLineEdgeWrite (high : Byte) (s : State) : Host.Outcome State Fault Refusal := .next (s.windowWrite 0x31 high)

/-- LOW_BYTE_WRITE (R178). -/
def execLowByteWrite (reg : WReg16) (value : Byte) (s : State) : Host.Outcome State Fault Refusal :=
  .next (s.windowWrite (lowOffset (holdRegister reg)) value)

/-- LOW_BYTE_READ (R177). -/
def execLowByteRead (reg : Reg16) (s : State) : Host.Outcome State Fault Refusal := .next (s.windowRead (lowOffset reg))

/-- REGISTER_WRITE (R176). -/
def execRegisterWrite (offset : BitVec 6) (value : Byte) (s : State) : Host.Outcome State Fault Refusal :=
  .next (s.windowWrite offset value)

/-- HIGH_BYTE_READ (R177). -/
def execHighByteRead (reg : Reg16) (s : State) : Host.Outcome State Fault Refusal :=
  .next (s.windowRead (lowOffset reg + 1))

end Sys2Proof.Machine
end

