-- ==== Sys2Proof/Machine/Dispatch.lean ====
section
/-!
DEFINITION. One arm for each command of the block, each one direct call of its meaning.
-/

namespace Sys2Proof.Machine

open Sys2Proof

def exec (i : Instr) (s : State) : Host.Outcome State Fault Refusal :=
  match i with
  | .fullReset => Sys2Proof.Machine.execFullReset s
  | .resetRelease => Sys2Proof.Machine.execResetRelease s
  | .clearEnd lines => Sys2Proof.Machine.execClearEnd lines s
  | .accessDuringClear access => Sys2Proof.Machine.execAccessDuringClear access s
  | .resetBroadcast => Sys2Proof.Machine.execResetBroadcast s
  | .resetBroadcastEnd => Sys2Proof.Machine.execResetBroadcastEnd s
  | .microsecondMark => Sys2Proof.Machine.execMicrosecondMark s
  | .tick => Sys2Proof.Machine.execTick s
  | .expiry n => Sys2Proof.Machine.execExpiry n s
  | .triggerLineEdge k level => Sys2Proof.Machine.execTriggerLineEdge k level s
  | .armDuty => Sys2Proof.Machine.execArmDuty s
  | .disarmDuty => Sys2Proof.Machine.execDisarmDuty s
  | .runCut => Sys2Proof.Machine.execRunCut s
  | .startChannel => Sys2Proof.Machine.execStartChannel s
  | .stopChannel => Sys2Proof.Machine.execStopChannel s
  | .triggerChannel => Sys2Proof.Machine.execTriggerChannel s
  | .targetOnline => Sys2Proof.Machine.execTargetOnline s
  | .targetOffline => Sys2Proof.Machine.execTargetOffline s
  | .submit => Sys2Proof.Machine.execSubmit s
  | .flushHost => Sys2Proof.Machine.execFlushHost s
  | .quietEnter => Sys2Proof.Machine.execQuietEnter s
  | .quietExit => Sys2Proof.Machine.execQuietExit s
  | .softReset => Sys2Proof.Machine.execSoftReset s
  | .softResetEffects => Sys2Proof.Machine.execSoftResetEffects s
  | .badCommand code => Sys2Proof.Machine.execBadCommand code s
  | .collision code => Sys2Proof.Machine.execCollision code s
  | .tmPtrWrite high => Sys2Proof.Machine.execTmPtrWrite high s
  | .tmDataRead => Sys2Proof.Machine.execTmDataRead s
  | .tmDataWrite value => Sys2Proof.Machine.execTmDataWrite value s
  | .noticeMemberRead => Sys2Proof.Machine.execNoticeMemberRead s
  | .cplPop value => Sys2Proof.Machine.execCplPop value s
  | .intCauseWrite high => Sys2Proof.Machine.execIntCauseWrite high s
  | .intEnableWrite high => Sys2Proof.Machine.execIntEnableWrite high s
  | .clockMhzWrite value => Sys2Proof.Machine.execClockMhzWrite value s
  | .tickPeriodWrite high => Sys2Proof.Machine.execTickPeriodWrite high s
  | .wakeUsWrite high => Sys2Proof.Machine.execWakeUsWrite high s
  | .busDivWrite value => Sys2Proof.Machine.execBusDivWrite value s
  | .pullinWrite value => Sys2Proof.Machine.execPullinWrite value s
  | .lineEdgeWrite high => Sys2Proof.Machine.execLineEdgeWrite high s
  | .lowByteWrite reg value => Sys2Proof.Machine.execLowByteWrite reg value s
  | .lowByteRead reg => Sys2Proof.Machine.execLowByteRead reg s
  | .registerWrite offset value => Sys2Proof.Machine.execRegisterWrite offset value s
  | .gapEnd => Sys2Proof.Machine.execGapEnd s
  | .interFrameGapEnd => Sys2Proof.Machine.execInterFrameGapEnd s
  | .readyTimeout => Sys2Proof.Machine.execReadyTimeout s
  | .attemptEnd status data => Sys2Proof.Machine.execAttemptEnd status data s
  | .retryGapEnd => Sys2Proof.Machine.execRetryGapEnd s
  | .quietBroadcastEnd => Sys2Proof.Machine.execQuietBroadcastEnd s
  | .wakeBroadcastEnd => Sys2Proof.Machine.execWakeBroadcastEnd s
  | .wakeWaitEnd => Sys2Proof.Machine.execWakeWaitEnd s
  | .highByteRead reg => Sys2Proof.Machine.execHighByteRead reg s

end Sys2Proof.Machine
end

