-- ==== Sys2Proof/Machine/Pins.lean ====
section
/-!
DEFINITION. The output pins as the state shows them: SCLK, SSEL#, what the part drives onto SD0 ... SD7 with SPAR in
each bus cycle of an attempt, phase by phase (R129, R132 to R136), the wait cycles of a HANDSHAKE target's slots, of
which a FIXED target's attempt has none (R138, R139), and the lengths of attempts (R137). Time itself is not in the
state: the events of the table bring it.
-/

namespace Sys2Proof.Machine

open Sys2Proof

/-- SCLK runs whenever the clear has ended (R129). -/
def State.sclkRuns (s : State) : Bool := s.phase == .running

/-- SSEL# is low: an attempt or a broadcast is on the bus (R129, R131, R147). -/
def State.sselLow (s : State) : Bool :=
  match s.engine with
  | .attempt _ => true
  | .broadcast _ => true
  | _ => false

/-- The three header bytes of the attempt or broadcast on the bus, with the parity the part drives (R71, R132). -/
def State.headerOnBus (s : State) : List Sample :=
  match s.engine with
  | .attempt a => (a.frame.header (s.target a.frame.target).seq).map driven
  | .broadcast b => b.header.map driven
  | _ => []

/-- The data bytes that the WRITE attempt on the bus drives, with their parity (R133). -/
def State.dataOnBus (s : State) : List Sample :=
  match s.engine with
  | .attempt a => a.sent.map driven
  | _ => []

/-- The wait cycles of one HANDSHAKE slot, given SWAIT# as sampled cycle by cycle (true for high), or `none` for
a ready timeout: a slot has at most `limit` wait cycles (R139). A slot still waiting counts as far as it is known. -/
def slotWaits : Nat → List Bool → Option Nat
  | _, [] => some 0
  | _, true :: _ => some 0
  | 0, false :: _ => none
  | limit + 1, false :: rest => (slotWaits limit rest).map (· + 1)

/-! ## The phases of an attempt, cycle by cycle (R132 to R140) -/

/-- What a bus cycle of an attempt is for: a header byte, a settle cycle, a wait cycle of a data slot, the cycle in
which the slot's byte moves, a pace cycle, the turnaround, or the status cycle (R133 to R135, R139). -/
inductive Phase where
  | header | settle | wait | data | pace | turnaround | status
  deriving DecidableEq, Repr

/-- One bus cycle: its phase, and what the part drives onto SD0 ... SD7 and SPAR, nothing where it has released
them (R129). -/
structure BusCycle where
  phase : Phase
  part : Option Sample
  deriving DecidableEq, Repr

/-- The three header cycles (R132). -/
def headerCycles (header : List Byte) : List BusCycle := header.map (fun b => ⟨.header, some (driven b)⟩)

/-- What the part drives in data slot `k`: a WRITE's byte with its parity, and nothing in a READ (R133, R134). -/
def Attempt.slotDrive (a : Attempt) (k : Nat) : Option Sample :=
  if a.frame.kind = .write then a.sent[k]?.map Machine.driven else none

/-- The wait cycles of data slot `k`, in which SWAIT# is low for `low k` cycles from the slot's first: all of them in an
attempt to a HANDSHAKE target (R139), and none to a FIXED one, each of whose slots is one cycle (R136, R138). -/
def Attempt.waits (a : Attempt) (low : Nat → Nat) (k : Nat) : Nat := if a.handshakes then low k else 0

/-- The wait cycles of the first `n` data slots together: the W of R137, 0 for a FIXED target. -/
def Attempt.waited (a : Attempt) (low : Nat → Nat) (n : Nat) : Nat := ((List.range n).map (a.waits low)).sum

/-- The PACE idle cycles ahead of data slot `k`, every slot but the first (R133, R134). -/
def Attempt.paceCycles (a : Attempt) (k : Nat) : List BusCycle :=
  if k = 0 then [] else List.replicate a.pace.toNat ⟨.pace, none⟩

/-- Data slot `k` behind its pace: the part drives a WRITE's byte from the slot's first cycle, through every wait cycle,
to the end of the one in which it moves (R139). -/
def Attempt.slotCycles (a : Attempt) (low : Nat → Nat) (k : Nat) : List BusCycle :=
  a.paceCycles k ++ List.replicate (a.waits low k) ⟨.wait, a.slotDrive k⟩ ++ [⟨.data, a.slotDrive k⟩]

/-- The first `n` data slots. -/
def Attempt.slots (a : Attempt) (low : Nat → Nat) : Nat → List BusCycle
  | 0 => []
  | n + 1 => a.slots low n ++ a.slotCycles low n

/-- The cycle in which the part has stopped driving SD0 ... SD7 and SPAR (R133 to R135). -/
def turnaround : BusCycle := ⟨.turnaround, none⟩

/-- The phases before the data slots: header and settle, with a READ's turnaround between them (R133, R134). -/
def Attempt.opening (a : Attempt) (header : List Byte) : List BusCycle :=
  headerCycles header ++ (if a.frame.kind = .read then [turnaround] else [])
    ++ List.replicate a.settleCycles.toNat ⟨.settle, none⟩

/-- The bus cycles of an attempt that runs to its status cycle, in order: a WRITE has its turnaround behind the data
(R133), a READ ahead of the settle (R134), a SYNC has neither settle nor data (R135). -/
def Attempt.run (a : Attempt) (header : List Byte) (low : Nat → Nat) : List BusCycle :=
  match a.frame.kind with
  | .write => a.opening header ++ a.slots low a.frame.length ++ [turnaround, ⟨.status, none⟩]
  | .read => a.opening header ++ a.slots low a.frame.length ++ [⟨.status, none⟩]
  | .sync => headerCycles header ++ [turnaround, ⟨.status, none⟩]

/-- The bus cycles of an attempt that a ready timeout ends in slot `slot` (the first is 0): READY_LIMIT wait cycles and
the cycle in which SWAIT# is found low once more, a WRITE's byte driven through them, and then no turnaround and no
status (R139, R140). -/
def Attempt.runToTimeout (a : Attempt) (header : List Byte) (low : Nat → Nat) (slot : Nat) : List BusCycle :=
  a.opening header ++ a.slots low slot ++ a.paceCycles slot
    ++ List.replicate (a.readyLimit.toNat + 1) ⟨.wait, a.slotDrive slot⟩

/-- The slot in which the attempt finds its ready timeout: the first with SWAIT# low for more than READY_LIMIT cycles
(R139); none in an attempt to a FIXED target, which knows no ready timeout (R138). -/
def Attempt.timeoutSlot (a : Attempt) (low : Nat → Nat) : Option Nat :=
  (List.range a.frame.length).find? (fun k => decide (a.readyLimit.toNat < a.waits low k))

/-- The bus cycles of an attempt, to its ready timeout or to its status cycle (R133 to R140). -/
def Attempt.busCycles (a : Attempt) (header : List Byte) (low : Nat → Nat) : List BusCycle :=
  match a.timeoutSlot low with
  | some slot => a.runToTimeout header low slot
  | none => a.run header low

/-- The part samples SWAIT# in a cycle: in the data slots of a HANDSHAKE target alone (R136). -/
def BusCycle.readsWait (x : BusCycle) (profile : Byte) : Bool := profile == 1 && (x.phase == .wait || x.phase == .data)

/-- The bus cycles of the attempt or broadcast on the bus, where SWAIT# is low for `low k` cycles from the start of slot
`k` (R132 to R140, R147). -/
def State.cyclesOnBus (s : State) (low : Nat → Nat) : List BusCycle :=
  match s.engine with
  | .attempt a => a.busCycles (a.frame.header (s.target a.frame.target).seq) low
  | .broadcast b => headerCycles b.header
  | _ => []

/-! ## Lengths in bus cycles (R137) -/

/-- The bus cycles of an attempt that runs to its status cycle (R137). -/
def Attempt.cycles (a : Attempt) (low : Nat → Nat) : Nat :=
  if a.frame.kind = .sync then 5
  else 5 + a.settleCycles.toNat + a.frame.length + a.pace.toNat * (a.frame.length - 1) + a.waited low a.frame.length

/-- The bus cycles of an attempt that a ready timeout ends in slot `slot` (the first is 0), the waits of the earlier
slots among them (R137, R139). -/
def Attempt.timeoutCycles (a : Attempt) (low : Nat → Nat) (slot : Nat) : Nat :=
  3 + a.settleCycles.toNat + (if a.frame.kind = .read then 1 else 0) + slot + a.pace.toNat * slot + a.waited low slot
    + (a.readyLimit.toNat + 1)

/-- The bus cycles of a broadcast (R137, R147). -/
def broadcastCycles : Nat := 3

/-- The bus cycles of the retry gap (R141). -/
def retryGapCycles : Nat := 2

end Sys2Proof.Machine
end

