-- ==== Sys2Proof/Machine/Conforming.lean ====
section
/-!
DEFINITION. A conforming target as the manual states it (R132, R143, R147): what it keeps, whether it takes part
in an attempt, what it answers, and whether it carries a WRITE out. It is the other end of the bus, no part
of the state of the block: its answers reach the block as the samples of ATTEMPT_END.
-/

namespace Sys2Proof.Machine

open Sys2Proof

/-- What a conforming target keeps: its number, the sequence bit L, and whether it is in its low-power state. -/
structure Device where
  number : Fin 16
  last : Bool
  asleep : Bool
  deriving DecidableEq, Repr

/-- What a conforming target drives at the status cycle (R141). -/
inductive DeviceReply where
  | silent | ack | nak | resend
  deriving DecidableEq, Repr

/-- The status cycle as the part would sample it without a fault on the lines (R72, R141). -/
def DeviceReply.sample : DeviceReply → Sample
  | .silent => idleSample
  | .ack => driven 0x5A
  | .nak => driven 0x3C
  | .resend => driven 0x66

/-- The target after an attempt or a broadcast, its answer, and whether it carried a WRITE out. -/
structure DeviceStep where
  device : Device
  reply : DeviceReply
  carriedOut : Bool
  deriving DecidableEq, Repr

/-- A WRITE attempt with sequence bit `seq` in which the target takes part (R143): `dataOdd` says that every data
byte arrived with odd parity, `accepts` that the target has what the WRITE addresses. -/
def Device.write (d : Device) (seq dataOdd accepts : Bool) : DeviceStep :=
  if !dataOdd then ⟨d, .resend, false⟩
  else if seq = d.last then ⟨d, .ack, false⟩
  else if accepts then ⟨{ d with last := seq }, .ack, true⟩
  else ⟨{ d with last := seq }, .nak, false⟩

/-- The attempt or broadcast whose header the target samples as `header` (R132, R143, R147). At a RESET broadcast the
target keeps or resets L as it likes: a free value (log entry 18). -/
def Device.hear (d : Device) (header : List Sample) (dataOdd accepts : Bool) : DeviceStep :=
  match header with
  | [b0, _, b2] =>
    if !header.all sampleOdd then ⟨d, .silent, false⟩
    else
      let kind := b0.sd >>> 4
      let mine := (b0.sd &&& 0x0F).toNat == d.number.val
      if kind = Broadcast.quiet.code then ⟨{ d with asleep := true }, .silent, false⟩
      else if kind = Broadcast.wake.code then ⟨{ d with asleep := false }, .silent, false⟩
      else if kind = Broadcast.reset.code then
        ⟨{ d with asleep := false, last := Config.lastAfterReset d.number.val d.last }, .silent, false⟩
      else if d.asleep || !mine then ⟨d, .silent, false⟩
      else if kind = FrameKind.write.code then d.write (b2.sd.getLsbD 4) dataOdd accepts
      else if kind = FrameKind.sync.code then ⟨{ d with last := b2.sd.getLsbD 4 }, .ack, false⟩
      else if kind = FrameKind.read.code then ⟨d, if accepts then .ack else .nak, false⟩
      else ⟨d, .silent, false⟩
  | _ => ⟨d, .silent, false⟩

/-- How often a WRITE is carried out over a sequence of attempts with the same sequence bit, each given as whether
the target took part in it and reached its status cycle, and whether its data bytes arrived with odd parity. -/
def Device.carriedOutOver (d : Device) (seq accepts : Bool) : List (Bool × Bool) → Nat
  | [] => 0
  | (heard, dataOdd) :: rest =>
    if heard then
      let r := d.write seq dataOdd accepts
      (if r.carriedOut then 1 else 0) + r.device.carriedOutOver seq accepts rest
    else d.carriedOutOver seq accepts rest

end Sys2Proof.Machine
end

