-- ==== Sys2Proof/Safety.lean ====
section
/-!
DEFINITION. What a good state of the part is, in the terms the statements use: the ranges, capacities and
correspondences that the manual states of the whole part.
-/

namespace Sys2Proof.Machine

open Sys2Proof

/-- The setting registers hold values of their ranges (R3, R4, R130, R163, R187). -/
def State.settingsInRange (s : State) : Prop :=
  (8 ≤ s.clockMhz.toNat ∧ s.clockMhz.toNat ≤ 32) ∧ 10 ≤ s.tickPeriod.toNat ∧
    (1 ≤ s.wakeUs.toNat ∧ s.wakeUs.toNat ≤ 4095) ∧ (2 ≤ s.busDiv.toNat ∧ s.busDiv.toNat ≤ 64) ∧
    s.intEnable.toNat < 128

/-- Queued requests, the request in flight and completion records never number more than eight (R103). -/
def State.slotsHeld (s : State) : Nat :=
  s.requests.length + (if s.inFlight.isSome then 1 else 0) + s.completions.length

/-- The host wait count does not exceed 4, and is 0 while no request waits (R124). -/
def State.hostWaitBounded (s : State) : Prop := s.hostWait ≤ 4 ∧ (s.requests = [] → s.hostWait = 0)

/-- A channel's PENDING never exceeds 2, and is 0 whenever the channel is neither WAITING nor BUSY (R76). -/
def State.pendingBounded (s : State) : Prop :=
  ∀ c : Fin 16, (s.channel c).pending.toNat ≤ 2 ∧ ((s.channel c).active = false → (s.channel c).pending = 0)

/-- The due queue holds each duty at most once, and holds exactly the duties whose state is DUE (R30). -/
def State.dueQueueExact (s : State) : Prop :=
  s.dueQueue.Nodup ∧ ∀ n : Fin 32, n ∈ s.dueQueue ↔ (s.duty n).state = .due

/-- Along the due queue from head to tail, slack never decreases (R31). -/
def State.dueQueueOrdered (s : State) : Prop := s.dueQueue.Pairwise (fun a b => s.slackOf a ≤ s.slackOf b)

/-- A grant for a duty names a RUNNING duty (R37). -/
def State.grantRuns (s : State) : Prop :=
  ∀ (n : Fin 32) (position : Nat), s.grant = some (.duty n position) → (s.duty n).state = .running

/-- The due queue's whole rule, once the clear has ended: exact (R30), in slack order (R31), and apart from the
duty that runs (R37). -/
def State.queueKept (s : State) : Prop :=
  s.phase = .running → s.dueQueueExact ∧ s.dueQueueOrdered ∧ s.grantRuns

/-- The balance of a duty in its state, and its range while the duty is in service (R2, R9). -/
def DutyRec.balanceFits (d : DutyRec) : Prop :=
  match d.state with
  | .idle => d.balance = 0
  | .faulted => True
  | .armed => 0 ≤ d.balance ∧ d.balance ≤ (d.pullinLimit.toNat : Int) ∧ 1 ≤ d.postponeLimit.toNat
  | .due => -(d.postponeLimit.toNat : Int) ≤ d.balance ∧ d.balance < 0
  | .running =>
    -(d.postponeLimit.toNat : Int) ≤ d.balance ∧ d.balance ≤ (d.pullinLimit.toNat : Int) ∧ 1 ≤ d.postponeLimit.toNat

/-- Every duty's account stands in its bounds, once the clear has ended (R2, R9). -/
def State.accountsKept (s : State) : Prop := s.phase = .running → ∀ n : Fin 32, (s.duty n).balanceFits

/-- The bus engine carries the work of a grant: the first target check to come, an attempt, a retry gap, or the idle
gap between two of its frames. -/
def State.engineWorks (s : State) : Bool :=
  match s.engine with
  | .granted => true
  | .attempt _ => true
  | .retryGap _ => true
  | .interGap _ => true
  | _ => false

/-- One owner of the bus (R116): the engine works exactly while a grant is in force, and no grant is in force in
QUIET or WAKING. -/
def State.busKept (s : State) : Prop :=
  (s.grant.isSome = s.engineWorks) ∧ (s.busState = .quiet ∨ s.busState = .waking → s.grant = none)

/-- The frame on the bus addresses an ONLINE target (R131, R150). -/
def State.framesOnline (s : State) : Prop := ∀ f : Frame, s.frameOnBus = some f → s.online f.target = true

/-- The bytes a frame moves lie in the data area (R66), or in DATA of one transaction record (R36). -/
def Frame.inRange (f : Frame) : Prop :=
  match f.path with
  | .area a => Config.dataBase ≤ a ∧ a + f.length ≤ Config.tableSize
  | .record i => i < 128 ∧ f.length ≤ 4
  | _ => True

/-- What is in use is what its command validated, once the clear has ended: the host fields of every target that is
not OFFLINE pass R155 (R151), every request has a LENGTH of 1 to 16 and its bytes in the data area (R104), the record
and list of every duty in service pass R24 (R36), every WAITING or BUSY channel follows a valid descriptor (R77), the
work that holds the grant is within its bounds (R43) and a granted channel BUSY with its unit in the data area (R87,
R89), the frame on the bus moves bytes in range (R66), and `mem` is in its one form. -/
def State.workKept (s : State) : Prop :=
  s.phase = .running →
    memWf s.mem = true ∧
    (∀ t : Fin 16, (s.target t).state ≠ .offline → (s.target t).valid = true) ∧
    (∀ r : Request, r ∈ s.requests ∨ s.inFlight = some r →
      (1 ≤ r.length ∧ r.length ≤ 16) ∧ Config.dataBase ≤ r.address ∧ r.address + r.length ≤ Config.tableSize) ∧
    (∀ n : Fin 32, (s.duty n).active = true → s.dutyValid n = true) ∧
    (∀ c : Fin 16, (s.channel c).active = true →
      (s.channel c).currentSlot.toNat ≤ 47 ∧ (s.currentDescriptor c).valid = true) ∧
    (∀ (n : Fin 32) (position : Nat), s.grant = some (.duty n position) →
      1 ≤ position ∧ position ≤ (s.duty n).listLength.toNat) ∧
    (∀ (c : Fin 16) (acknowledge : Bool), s.grant = some (.channel c acknowledge) →
      (s.channel c).state = .busy ∧ s.unitInRange c = true) ∧
    (∀ f : Frame, s.frameOnBus = some f → f.inRange)

/-- Command `c` brings the end of attempt `a` with outcome `o` and data samples `data`: its status cycle (R141), or a
ready timeout in a WRITE or READ attempt to a HANDSHAKE target (R136, R139, R140). -/
def Attempt.endsBy (a : Attempt) (c : Instr) (o : FrameOutcome) (data : List Sample) : Prop :=
  (∃ status, c = .attemptEnd status data ∧ attemptOutcome a.frame status data = o) ∨
    (c = .readyTimeout ∧ o = .readyTimeout ∧ data = [] ∧ a.frame.kind ≠ .sync ∧ a.profile = 1)

/-- No attempt follows attempt `a` when it ends with outcome `o`: the outcome is not retried, or no attempts are
left (R141). -/
def Attempt.last (a : Attempt) (o : FrameOutcome) : Prop := ¬(o.retried = true ∧ a.count ≤ a.retryLimit.toNat)

/-- `s` with the fields of `u` that the end of an event may change (R84, R106, R119, R120, R167): the records of
targets, channels and duties, the queues, the grant, the bus engine, the bus state and the command unit. -/
def State.withWorkOf (s u : State) : State :=
  { s with
    unit := u.unit, cmdResult := u.cmdResult, commandDone := u.commandDone
    targets := u.targets, channels := u.channels, duties := u.duties
    dueQueue := u.dueQueue, channelPointer := u.channelPointer
    requests := u.requests, inFlight := u.inFlight, completions := u.completions
    grant := u.grant, hostWait := u.hostWait
    engine := u.engine, busDivInForce := u.busDivInForce
    busState := u.busState, purpose := u.purpose }

end Sys2Proof.Machine
end

