-- ==== Sys2Proof/WellFormed.lean ====
section
/-!
DEFINITION. Which terms of `Instr` are the rows they stand for. A term that fails a check is still given
the meaning of the access or event it spells (the same bytes on the host port), so the check restricts
nothing the part does.
-/

namespace Sys2Proof

/-- The command codes of R180's table, in its order. -/
def commandCodes : List Byte :=
  [0x01, 0x02, 0x10, 0x11, 0x12, 0x20, 0x21, 0x30, 0x31, 0x40, 0x41, 0x7F]

/-- The window offsets whose writes have a row of their own in the table: CMD_CODE, TM_PTR, TM_DATA,
CPL_POP, INT_CAUSE, INT_ENABLE, CLOCK_MHZ, TICK_PERIOD, WAKE_US, BUS_DIV, PULLIN and LINE_EDGE (R176). -/
def offsetsWithOwnWriteRow : List (BitVec 6) :=
  [0x05, 0x08, 0x09, 0x0A, 0x1C, 0x24, 0x25, 0x26, 0x27, 0x28, 0x2A, 0x2B, 0x2C, 0x2D, 0x2E, 0x2F, 0x30, 0x31]

/-- `i` is a term of the row it stands for: a BAD_COMMAND's code names no command (R180), a
REGISTER_WRITE's offset has no row of its own (R176), and a READ attempt samples at most 16 data bytes (R71). -/
def Instr.wellFormed : Instr → Bool
  | .badCommand code => !commandCodes.contains code
  | .registerWrite offset _ => !offsetsWithOwnWriteRow.contains offset
  | .attemptEnd _ data => decide (data.length ≤ 16)
  | _ => true

end Sys2Proof
end

