-- ==== Sys2Proof/Certificates/Slice0/Obligations.lean ====
section
/-!
DEFINITION. The statements for the provers. A command's statement gives the state that the command's own rule
makes, followed by `settle`: what the part does in the same event at its end (halts, disposals, the excursion and
the arbiter's decision), of which the statements SettleChangesWorkOnly and NothingWaitsAfterAnEvent speak.
-/

open Sys2Proof Sys2Proof.Machine

/-! ## The step -/

/-- A step takes the command at the front of the queue and executes it with the queue's rest (R176: accesses are
taken in the order the host made them). -/
def Obligations.StepRunsTheFrontCommand : Prop :=
  ∀ (s : State) (c : Instr) (rest : List Instr), s.pending = c :: rest → step s = exec c { s with pending := rest }

/-- Every command, in every state, ends in a next state, so no access and no event stops the part (log entry 3), and
leaves the commands that wait as they stand. -/
def Obligations.EveryCommandEndsAndKeepsTheQueue : Prop :=
  ∀ (c : Instr) (s : State), ∃ t, exec c s = .next t ∧ t.pending = s.pending

/-! ## Reset -/

/-- The values after a full reset that the manual gives for registers, queues, counters and modes. -/
def Obligations.ResetGivesTheStatedValues : Prop :=
  let s := State.reset
  s.clockMhz = 16 ∧ s.tickPeriod = 1000 ∧ s.busDiv = 8 ∧ s.wakeUs = 200 ∧ s.pullin = true ∧ s.lineEdge = 0 ∧
    s.channelPointer = 15 ∧ s.tmPtr = 0 ∧ s.guardAddr = 0 ∧ s.intEnable = 0 ∧ s.unit = .ready ∧ s.cmdOperand = 0 ∧
    s.cmdCode = 0 ∧ s.cmdResult = 0 ∧ s.noticeCause = 0 ∧ s.intCause = 0 ∧ s.noticeSet = [] ∧ s.dueQueue = [] ∧
    s.requests = [] ∧ s.inFlight = none ∧ s.completions = [] ∧ s.slotsFree = 8 ∧ s.grant = none ∧ s.hostWait = 0 ∧
    s.busState = .active ∧ s.purpose = .none ∧ s.wakeTimer = 0 ∧ s.status = 0 ∧ s.intLow = false ∧
    (∀ r, s.latch r = none) ∧ (∀ w, s.hold w = none) ∧ (∀ k : Fin 8, s.staging[k] = 0)

/-- FULL_RESET in every state: registers, queues, counters and modes take their full-reset values, the frame or
broadcast on the bus and the grant are abandoned without an outcome, and the notice set is empty (R67, R148, R188).
Model's choice: the records keep their other bytes until the clear (log entry 9, DEDUCED), and of State.reset's values
LINE_LEVEL 0 and the latched WAKE_US 200 (log entry 2, DESIGN CHOICE). -/
def Obligations.FullResetAbandonsAndRestores : Prop :=
  ∀ s : State, ∃ t, exec .fullReset s = .next t ∧
    t = { State.reset with
      targets := t.targets, channels := t.channels, duties := t.duties
      mem := s.mem, hostData := s.hostData, freeCount := s.freeCount, pending := s.pending } ∧
    t.noticeSet = [] ∧
    (∀ k, t.target k = (s.target k).clearNotices) ∧ (∀ c, t.channel c = (s.channel c).clearNotices) ∧
    (∀ n, t.duty n = (s.duty n).clearNotices)

/-- R68, while RESET# is low and until the clear ends: ID and STATUS answer and every other read returns 0, with
no side effect; every write is ignored, those of CMD_CODE among them; INT# is released while INT_ENABLE holds 0; a
trigger-line edge is no arrival. -/
def Obligations.WindowIsClosedUntilTheClearEnds : Prop :=
  ∀ s : State, s.phase ≠ .running →
    (∀ (offset : BitVec 6) (v : Byte), exec (.accessDuringClear (.write offset v)) s = .next s) ∧
    (∀ offset : BitVec 6, exec (.accessDuringClear (.read offset)) s = .next { s with
      hostData := if offset = 0x00 then 0x4A else if offset = 0x01 then 0x63
        else if offset = 0x02 then s.status else 0 }) ∧
    s.status.getLsbD 0 = false ∧
    (∀ code : Byte, exec (.badCommand code) s = .next s ∧ exec (.collision code) s = .next s) ∧
    (s.intEnable = 0 → s.intLow = false) ∧
    (∀ (k : Fin 8) (level : Bool), exec (.triggerLineEdge k level) s = .next s)

/-- From the release to the arbiter's gap. RESET_RELEASE begins the clear (R67). CLEAR_END: STATUS shows ready, READY is
the one interrupt cause, every byte of table memory reads 0, the filtered levels are the lines' levels without an edge,
the timebase stands at zero under its reset settings, the due queue is empty, and the bus engine waits to send the
RESET broadcast (R5, R69, R74). The broadcast starts with header 0xA0, 0x00, 0x00 in odd parity, and at its end the
gap begins (R149, R147, R71). Model's choice: where the part does not raise the event, the row leaves the state (log
entry 3). -/
def Obligations.ReleaseClearAndResetBroadcast : Prop :=
  ∀ s : State,
    (s.phase = .inReset → exec .resetRelease s = .next { s with phase := .clearing }) ∧
    (s.phase ≠ .inReset → exec .resetRelease s = .next s) ∧
    (∀ lines : Byte, s.phase = .clearing →
      ∃ t, exec (.clearEnd lines) s = .next t ∧ t.status = 0x01 ∧ t.intCause = 0x0040 ∧
        (∀ a : BitVec 13, t.tableByte a = 0) ∧ t.lineLevel = lines ∧ t.prescaler = 0 ∧ t.tickCount = 0 ∧
        t.ticksDue = 0 ∧ t.periodInForce = 1000 ∧ t.prescalerDiv = 16 ∧ t.dueQueue = [] ∧ t.engine = .resetWait ∧
        t.grant = none ∧
        (∀ k, (t.target k).state = .offline ∧ (t.target k).inSync = false ∧ (t.target k).seq = false) ∧
        (∀ c, (t.channel c).state = .idle) ∧ (∀ n, (t.duty n).state = .idle)) ∧
    (∀ lines : Byte, s.phase ≠ .clearing → exec (.clearEnd lines) s = .next s) ∧
    (s.engine = .resetWait → ∃ t, exec .resetBroadcast s = .next t ∧
      t = { s with engine := .broadcast .reset, busDivInForce := s.busDiv } ∧
      t.headerOnBus = [⟨0xA0, true⟩, ⟨0x00, true⟩, ⟨0x00, true⟩]) ∧
    (s.engine = .broadcast .reset → exec .resetBroadcastEnd s = .next { s with engine := .gap }) ∧
    (s.engine ≠ .resetWait → exec .resetBroadcast s = .next s) ∧
    (s.engine ≠ .broadcast .reset → exec .resetBroadcastEnd s = .next s)

/-! ## Time -/

/-- The timebase. On an empty queue one chip clock passes (model's choice, log entry 4), by the end of which work just
granted has made its first target check (log entry 22): the prescaler counts it, and the clock that completes the
divisor in force marks a microsecond, after which the prescaler starts again under CLOCK_MHZ (R3). A microsecond mark
counts in the tick counter; the mark that completes the period in force issues a tick and begins a period under
TICK_PERIOD (R4). During the wait of WAKING the wake timer counts it too, and the mark that brings the timer to the
latched WAKE_US ends the wait: ACTIVE with the BUS_STATE cause, or EXCURSION (R168, R173). -/
def Obligations.ClocksMarksAndTicksAreCounted : Prop :=
  ∀ s : State,
    let keeps := fun u : State => u.wakeWaiting = s.wakeWaiting ∧ u.purpose = s.purpose ∧ u.busState = s.busState ∧
      u.busStateCause = s.busStateCause
    (s.pending = [] →
      (s.phase ≠ .running → step s = .next s) ∧
      (s.phase = .running → s.prescaler + 1 < s.prescalerDiv.toNat →
        step s = .next { s.firstCheck with prescaler := s.prescaler + 1 }) ∧
      (s.phase = .running → s.prescalerDiv.toNat ≤ s.prescaler + 1 → step s = exec .microsecondMark s)) ∧
    (s.phase ≠ .running → exec .microsecondMark s = .next s) ∧
    (s.phase = .running →
      ∃ u : State, exec .microsecondMark s = .next u.settle ∧ u.prescaler = 0 ∧ u.prescalerDiv = s.clockMhz ∧
        (s.tickCount + 1 < s.periodInForce.toNat → u.tickCount = s.tickCount + 1 ∧ u.ticksDue = s.ticksDue ∧
          u.periodInForce = s.periodInForce) ∧
        (s.tickCount + 1 = s.periodInForce.toNat → u.tickCount = 0 ∧ u.ticksDue = s.ticksDue + 1 ∧
          u.periodInForce = s.tickPeriod) ∧
        (s.wakeWaiting = false → u.wakeTimer = s.wakeTimer ∧ keeps u) ∧
        (s.wakeWaiting = true → s.wakeTimer + 1 < s.wakeLatched.toNat → u.wakeTimer = s.wakeTimer + 1 ∧ keeps u) ∧
        (s.wakeWaiting = true → s.wakeLatched.toNat ≤ s.wakeTimer + 1 →
          u.wakeTimer = 0 ∧ u.wakeWaiting = false ∧ u.purpose = .none ∧
          (s.purpose = .excursion → u.busState = .excursion ∧ u.busStateCause = s.busStateCause) ∧
          (s.purpose ≠ .excursion → u.busState = .active ∧ u.busStateCause = true)) ∧
        u = { s with
          prescaler := u.prescaler, prescalerDiv := u.prescalerDiv, tickCount := u.tickCount, ticksDue := u.ticksDue
          periodInForce := u.periodInForce, wakeTimer := u.wakeTimer, wakeWaiting := u.wakeWaiting
          purpose := u.purpose, busState := u.busState, busStateCause := u.busStateCause })

/-- TICK (R15): the tick that is due is taken, every HELD flag clears, and the timers are processed in ascending index.
A duty's record becomes what its own record gives: a timer that is stopped or paused keeps its value (R6), one above 1
is decremented, one at 1 expires, reloads with INTERVAL and acts on the balance (R7, R11 to R14). In the same order the
duties that fall DUE enter the queue, and the DUE duties that expire move, each at its slack (R31 to R33): the
duties before it have been processed, those behind it have not. Where no tick is due the marks of the rest of the period
pass first, and with them the wait of WAKING; then the event ends (log entry 5). -/
def Obligations.TickActsOnEveryDutyAndTheQueue : Prop :=
  ∀ s : State, s.phase = .running →
    let v := s.takeTick
    let w := v.upkeepTick
    let expires := fun n => (v.duty n).active = true ∧ (v.duty n).paused v.busState = false ∧
      (v.duty n).remaining.toNat ≤ 1
    let limit := fun n => -((v.duty n).postponeLimit.toNat : Int)
    exec .tick s = .next w.endWaitIfOver.settle ∧
    (0 < s.ticksDue → v = { s with ticksDue := s.ticksDue - 1 }) ∧
    (s.ticksDue = 0 → s.tickCount < s.periodInForce.toNat →
      let marks := s.periodInForce.toNat - s.tickCount
      let left := s.wakeLatched.toNat - s.wakeTimer
      let u := { s with prescaler := 0, prescalerDiv := s.clockMhz, tickCount := 0, periodInForce := s.tickPeriod }
      (s.wakeWaiting = false → v = u) ∧
      (s.wakeWaiting = true → marks ≤ left → v = { u with wakeTimer := s.wakeTimer + marks }) ∧
      (s.wakeWaiting = true → 0 < left → left < marks → ∃ e : State,
        v = { e.settle with tickCount := 0, periodInForce := s.tickPeriod } ∧
        e = { s with
          prescaler := 0, prescalerDiv := s.clockMhz, tickCount := s.tickCount + left
          wakeTimer := 0, wakeWaiting := false, purpose := .none, busState := e.busState
          busStateCause := e.busStateCause } ∧
        (s.purpose = .excursion → e.busState = .excursion ∧ e.busStateCause = s.busStateCause) ∧
        (s.purpose ≠ .excursion → e.busState = .active ∧ e.busStateCause = true))) ∧
    w = { v with duties := w.duties, dueQueue := w.dueQueue } ∧
    (∀ n : Fin 32,
      let d := { v.duty n with held := false }
      let e := { d with remaining := d.interval }
      let runs := d.active = true ∧ d.paused v.busState = false
      (¬runs → w.duty n = d) ∧
      (runs → 1 < d.remaining.toNat → w.duty n = { d with remaining := d.remaining - 1 }) ∧
      (expires n →
        (d.state = .armed → 1 ≤ d.balance → w.duty n = { e with balance := d.balance - 1 }) ∧
        (d.state = .armed → d.balance ≤ 0 → w.duty n = { e with balance := d.balance - 1, state := .due }) ∧
        (d.state ≠ .armed → d.balance = limit n → w.duty n = { e with
          lateCount := if d.lateCount = 255 then 255 else d.lateCount + 1, noticeLate := true }) ∧
        (d.state ≠ .armed → d.balance ≠ limit n → w.duty n = { e with balance := d.balance - 1 }))) ∧
    w.dueQueue = allDuties.foldl (fun q n =>
      let slack := fun k => if k ≤ n then w.slackOf k else v.slackOf k
      if expires n ∧ (v.duty n).state = .armed ∧ (v.duty n).balance ≤ 0 then placeBySlack slack n q
      else if expires n ∧ (v.duty n).state = .due ∧ (v.duty n).balance ≠ limit n then
        placeBySlack slack n (q.filter (fun k => k != n))
      else q) v.dueQueue

/-- EXPIRY: the timer reloads with INTERVAL (R7). Late, at a DUE or RUNNING duty whose BALANCE is -POSTPONE_LIMIT (R12): the
state and BALANCE stand, LATE_COUNT rises to at most 255 and LATE is noticed. Else BALANCE falls by 1: an ARMED duty with
credit stays ARMED, one at 0 falls DUE and enters the queue at its slack (R11); a DUE duty is taken out of the queue
and placed by its new slack (R13, R32); a RUNNING duty runs on (R14). Model's choice: the row is an expiry whatever
REMAINING holds (log entry 6, DEDUCED), and leaves the state of a part whose duty has no running timer (log entry 3,
DESIGN CHOICE). -/
def Obligations.ExpiryActsByStateAndBalance : Prop :=
  ∀ (s : State) (n : Fin 32), s.phase = .running → (s.duty n).paused s.busState = false →
    let d := s.duty n
    let e := { d with remaining := d.interval, balance := d.balance - 1 }
    let u := s.setDuty n e
    let v := s.setDuty n { e with state := .due }
    let limit := -(d.postponeLimit.toNat : Int)
    (d.state = .due ∨ d.state = .running → d.balance = limit → exec (.expiry n) s = .next (s.setDuty n { d with
      remaining := d.interval, lateCount := if d.lateCount = 255 then 255 else d.lateCount + 1
      noticeLate := true }).settle) ∧
    (d.state = .armed → 1 ≤ d.balance → exec (.expiry n) s = .next u.settle) ∧
    (d.state = .armed → d.balance = 0 → exec (.expiry n) s =
      .next { v with dueQueue := placeBySlack v.slackOf n s.dueQueue }.settle) ∧
    (d.state = .due → d.balance ≠ limit → exec (.expiry n) s = .next { u with
        dueQueue := placeBySlack u.slackOf n (s.dueQueue.filter (fun k => k != n)) }.settle) ∧
    (d.state = .running → d.balance ≠ limit → exec (.expiry n) s = .next u.settle) ∧
    (d.state = .idle ∨ d.state = .faulted → exec (.expiry n) s = .next s)

/-- Slack is POSTPONE_LIMIT less the runs a duty owes (R10). A placed duty stands immediately after the last entry whose
slack is at most its own, at the head when there is none, the other entries keep their order, and a queue in slack
order stays in slack order (R31). -/
def Obligations.PlacementFollowsSlack : Prop :=
  (∀ (s : State) (n : Fin 32),
    (0 ≤ (s.duty n).balance → s.slackOf n = (s.duty n).postponeLimit.toNat) ∧
    ((s.duty n).balance < 0 → s.slackOf n = (s.duty n).postponeLimit.toNat + (s.duty n).balance)) ∧
  ∀ (slack : Fin 32 → Int) (n : Fin 32) (q : List (Fin 32)),
    (∃ before after, q = before ++ after ∧ placeBySlack slack n q = before ++ n :: after ∧
      (before = [] ∨ ∃ front last, before = front ++ [last] ∧ slack last ≤ slack n) ∧
      ∀ e ∈ after, slack n < slack e) ∧
    (q.Pairwise (fun a b => slack a ≤ slack b) →
      (placeBySlack slack n q).Pairwise (fun a b => slack a ≤ slack b))

/-- TRIGGER_LINE_EDGE (R74, R75): the filtered level changes; where the selection takes the edge, every channel that
listens to the line, and no other, takes one arrival, each as an event of its own and in some order; where the level does
not change there is no edge, and the row leaves the state (log entry 3). The order of the arrivals is a free value (log
entry 19). An arrival acts on its own channel's record alone, and ends like any event but for the first target check
(log entry 22): where nothing waited before it, it halts its channel when the target is not ONLINE (R84), on a free bus
in ACTIVE it grants its channel at once, whatever arrivals follow (R119), and else nothing more happens. -/
def Obligations.EdgeArrivesAtListeningChannels : Prop :=
  (∀ (s : State) (k : Fin 8) (level : Bool), s.phase = .running →
    (s.lineLevel.getLsbD k.val = level → exec (.triggerLineEdge k level) s = .next s) ∧
    (s.lineLevel.getLsbD k.val ≠ level →
      ∃ (u : State) (order : List (Fin 16)),
        exec (.triggerLineEdge k level) s = .next (order.foldl State.takeArrival u.settle) ∧
        u = { s with lineLevel := u.lineLevel, freeCount := u.freeCount } ∧
        (∀ j : Fin 8, u.lineLevel.getLsbD j.val = if j = k then level else s.lineLevel.getLsbD j.val) ∧
        order.Nodup ∧
        ∀ c : Fin 16, c ∈ order ↔
          s.lineEdge.getLsbD (2 * k.val + if level then 0 else 1) = true ∧
            (s.channel c).triggerLine.toNat = k.val + 1)) ∧
  ∀ (s : State) (c : Fin 16),
    let a := s.arriveAt c
    let r := (s.channel c).arrive
    let waits := r.state = .waiting ∧ r.pending ≠ 0
    let up := s.online (s.currentDescriptor c).target
    let decides := s.engine = .free ∧ s.grant = none ∧ s.softResetPending = false ∧ s.busState = .active
    a = { s with channels := a.channels } ∧ (∀ e, a.channel e = if e = c then r else s.channel e) ∧
    (s.engine ≠ .granted → s.takeArrival c = a.settle) ∧
    (s.react = s →
      (¬waits → s.takeArrival c = a) ∧
      (waits → up = false → s.takeArrival c = a.setChannel c { r with
        state := .halted, haltCause := .targetDown, pending := 0, stopPending := false, noticeHalt := true }) ∧
      (waits → up = true → decides → s.takeArrival c = a.grantChannel c) ∧
      (waits → up = true → ¬decides → s.takeArrival c = a))

/-- A trigger arrival at a channel (R81 to R83): ignored where the channel is neither WAITING nor BUSY, counted up to
two, and the third halts a WAITING channel with OVERRUN or is recorded at a BUSY one behind any cause it holds. -/
def Obligations.ArrivalCountsOrOverruns : Prop :=
  ∀ r : ChannelRec,
    (r.state ≠ .waiting → r.state ≠ .busy → r.arrive = r) ∧
    (r.state = .waiting ∨ r.state = .busy → r.pending.toNat ≤ 1 → r.arrive = { r with pending := r.pending + 1 }) ∧
    (r.state = .waiting → 2 ≤ r.pending.toNat → r.arrive =
      { r with state := .halted, haltCause := .overrun, pending := 0, stopPending := false, noticeHalt := true }) ∧
    (r.state = .busy → 2 ≤ r.pending.toNat → r.arrive =
      { r with haltCause := if r.haltCause = .none then .overrun else r.haltCause })

/-! ## Commands -/

/-- ARM_DUTY (R23, with R8 for REMAINING): its four results in order, and what arming writes. -/
def Obligations.ArmDutyFollowsItsOrder : Prop :=
  ∀ s : State, s.phase = .running → s.unit = .ready →
    let u := { s with cmdCode := 0x01, commandDone := true }
    let n := dutyIndex s.cmdOperand
    let d := s.duty n
    (31 < s.cmdOperand.toNat → exec .armDuty s = .next { u with cmdResult := 2 }.settle) ∧
    (s.cmdOperand.toNat ≤ 31 → d.state = .armed ∨ d.state = .due ∨ d.state = .running →
      exec .armDuty s = .next { u with cmdResult := 3 }.settle) ∧
    (s.cmdOperand.toNat ≤ 31 → d.state = .idle ∨ d.state = .faulted → s.dutyValid n = false →
      exec .armDuty s = .next { u with cmdResult := 4 }.settle) ∧
    (s.cmdOperand.toNat ≤ 31 → d.state = .idle ∨ d.state = .faulted → s.dutyValid n = true →
      exec .armDuty s = .next ({ u with cmdResult := 0 }.setDuty n { d with
        state := .armed, balance := 0, remaining := if d.phase = 0 then d.interval else d.phase
        consecFails := 0, lateCount := 0, held := false, stale := false, disarmPending := false
        lastFailure := .none, failPosition := 0 }).settle)

/-- The checks of ARM_DUTY, item by item (R24), those of the transaction records on their bytes (R70). -/
def Obligations.DutyRecordsAreCheckedAsListed : Prop :=
  ∀ (s : State) (n : Fin 32),
    let d := s.duty n
    s.dutyValid n = true ↔
      d.target.toNat ≤ 15 ∧ 1 ≤ d.interval.toNat ∧ d.phase.toNat ≤ d.interval.toNat ∧
      (1 ≤ d.postponeLimit.toNat ∧ d.postponeLimit.toNat ≤ 12) ∧ d.pullinLimit.toNat ≤ 12 ∧
      d.listFirst.toNat ≤ 127 ∧ (1 ≤ d.listLength.toNat ∧ d.listLength.toNat ≤ 8) ∧
      d.listFirst.toNat + d.listLength.toNat ≤ 128 ∧
      (1 ≤ d.faultThreshold.toNat ∧ d.faultThreshold.toNat ≤ 7) ∧ (d.quietPolicy = 0 ∨ d.quietPolicy = 1) ∧
      ∀ i, d.listFirst.toNat ≤ i → i < d.listFirst.toNat + d.listLength.toNat →
        let byte := fun k => memRead s.mem (0x0900 + 8 * i + k)
        (byte 0).toNat % 4 ≠ 0 ∧ (1 ≤ (byte 2).toNat ∧ (byte 2).toNat ≤ 4) ∧
        ((byte 0).toNat % 4 = 3 → ∃ k, k < (byte 2).toNat ∧ (byte 0).getLsbD (4 + k) = true)

/-- What the blocks read in the bytes of a descriptor and of a transaction record (R70), which descriptor a channel
follows (R77), and the checks of a descriptor, item by item (R78). -/
def Obligations.DescriptorsAreReadAndCheckedAsListed : Prop :=
  ∀ s : State,
    (∀ slot : Nat,
      let byte := fun k => memRead s.mem (0x0600 + 16 * slot + k)
      let half := fun k => (byte k).toNat + 256 * (byte (k + 1)).toNat
      let d := s.descriptor slot
      (d.isWrite = true ↔ byte 0 ≠ 0) ∧ d.unitSize = byte 1 ∧ d.target.val = (byte 2).toNat % 16 ∧
      d.offsetIncrement = (byte 2).getLsbD 4 ∧ d.memoryIncrement = (byte 2).getLsbD 5 ∧ d.startOffset = byte 3 ∧
      d.memoryStart.toNat = half 4 ∧ d.count.toNat = half 6 ∧ d.endAction = byte 8 ∧ d.nextSlot = byte 9 ∧
      (d.ackEnable = true ↔ byte 10 ≠ 0) ∧ d.ackOffset = byte 11 ∧ d.ackValue = byte 12 ∧
      (d.notify = true ↔ byte 13 ≠ 0) ∧
      (d.valid = true ↔ (byte 1 = 1 ∨ byte 1 = 2 ∨ byte 1 = 4) ∧ (1 ≤ half 6 ∧ half 6 ≤ 4096) ∧
        (byte 8).toNat ≤ 2 ∧ (byte 8 = 1 → (byte 9).toNat ≤ 47) ∧
        0x0D00 ≤ half 4 ∧ half 4 + (byte 1).toNat ≤ 0x2000)) ∧
    (∀ c : Fin 16, s.currentDescriptor c = s.descriptor (s.channel c).currentSlot.toNat) ∧
    ∀ i : Nat,
      let byte := fun k => memRead s.mem (0x0900 + 8 * i + k)
      (s.transactionKind i = .write ↔ (byte 0).toNat % 4 = 1) ∧
      (s.transactionKind i = .readCapture ↔ (byte 0).toNat % 4 = 2) ∧
      (s.transactionKind i = .readCompare ↔ (byte 0).toNat % 4 = 3) ∧
      (∀ k, s.compareEnable i k = (byte 0).getLsbD (4 + k)) ∧ s.transactionOffset i = byte 1 ∧
      s.transactionLength i = (byte 2).toNat ∧ s.pauseAfter i = (byte 3).toNat

/-- Every byte of every record as the host reads it (R56, R70): each field in its place, 16-bit fields with the low byte
first, BALANCE in two's complement, state and condition codes and flag bits as listed, spare bytes 0; every other
address reads its own byte. -/
def Obligations.RecordBytesLieAsListed : Prop :=
  ∀ s : State,
    let bit := fun (b : Bool) (k : Nat) => if b then 2 ^ k else 0
    let cond := fun c : Condition => match c with
      | .none => 0 | .nak => 1 | .noResponse => 2 | .readyTimeout => 3 | .parity => 4 | .mismatch => 5
      | .targetDown => 6 | .overrun => 7 | .memoryRange => 8 | .badDescriptor => 9 | .flushed => 10
    (∀ t : Fin 16,
      let r := s.target t
      (List.range 16).map (fun k => (s.tableByte (BitVec.ofNat 13 (16 * t.val + k))).toNat) =
        [r.profile.toNat, r.settleCycles.toNat, r.pace.toNat, r.readyLimit.toNat, r.retryLimit.toNat,
          r.quarantineThreshold.toNat, 0, 0,
          (match r.state with | .offline => 0 | .online => 1 | .quarantined => 2), r.consecFails.toNat,
          cond r.lastFailure, bit r.seq 0 + bit r.inSync 1 + bit r.offlinePending 2, r.framesCompleted.toNat % 256,
          r.framesCompleted.toNat / 256, bit r.noticeQuarantined 0, 0]) ∧
    (∀ c : Fin 16,
      let r := s.channel c
      (List.range 16).map (fun k => (s.tableByte (BitVec.ofNat 13 (0x0100 + 16 * c.val + k))).toNat) =
        [r.triggerLine.toNat, r.firstSlot.toNat,
          (match r.state with | .idle => 0 | .waiting => 1 | .busy => 2 | .done => 3 | .halted => 4),
          r.currentSlot.toNat, r.remainingCount.toNat % 256, r.remainingCount.toNat / 256, r.currentOffset.toNat,
          r.pending.toNat, r.currentAddress.toNat % 256, r.currentAddress.toNat / 256, bit r.stopPending 0,
          cond r.haltCause, r.unitsDone.toNat % 256, r.unitsDone.toNat / 256,
          bit r.noticeEnd 0 + bit r.noticeChain 1 + bit r.noticeHalt 2, 0]) ∧
    (∀ n : Fin 32,
      let d := s.duty n
      (List.range 32).map (fun k => (s.tableByte (BitVec.ofNat 13 (0x0200 + 32 * n.val + k))).toNat) =
        [d.target.toNat, d.postponeLimit.toNat, d.interval.toNat % 256, d.interval.toNat / 256, d.phase.toNat % 256,
          d.phase.toNat / 256, d.pullinLimit.toNat, d.listFirst.toNat, d.listLength.toNat, d.faultThreshold.toNat,
          d.quietPolicy.toNat, d.notifyOnRun.toNat, 0, 0, 0, 0,
          (match d.state with | .idle => 0 | .armed => 1 | .due => 2 | .running => 3 | .faulted => 4),
          (d.balance % 256).toNat, d.remaining.toNat % 256, d.remaining.toNat / 256, d.consecFails.toNat,
          d.lateCount.toNat, bit d.held 0 + bit d.stale 1 + bit d.disarmPending 2, cond d.lastFailure,
          d.failPosition.toNat, d.completedRuns.toNat % 256, d.completedRuns.toNat / 256,
          bit d.noticeRunDone 0 + bit d.noticeRunFailed 1 + bit d.noticeLate 2 + bit d.noticeFault 3, 0, 0, 0, 0]) ∧
    ∀ a : BitVec 13, 0x0600 ≤ a.toNat → s.tableByte a = memRead s.mem a.toNat

/-- DISARM_DUTY (R25): BAD_OPERAND above 31; ARMED, DUE and FAULTED become IDLE at once, a DUE duty leaving the queue;
RUNNING with a frame of the run on the bus waits with DISARM_PENDING; IDLE is WRONG_STATE. Behind a grant decision whose
work has not made its first target check, the command comes after that check (NextFrameFollowsTheTargetCheck). -/
def Obligations.DisarmDutyActsByState : Prop :=
  ∀ s : State, s.phase = .running → s.unit = .ready → s.engine ≠ .granted →
    let u := { s with cmdCode := 0x02 }
    let n := dutyIndex s.cmdOperand
    let d := s.duty n
    let idle := { d with state := .idle, balance := 0, held := false, stale := false }
    (31 < s.cmdOperand.toNat →
      exec .disarmDuty s = .next { u with cmdResult := 2, commandDone := true }.settle) ∧
    (s.cmdOperand.toNat ≤ 31 → d.state = .idle →
      exec .disarmDuty s = .next { u with cmdResult := 3, commandDone := true }.settle) ∧
    (s.cmdOperand.toNat ≤ 31 → d.state = .armed ∨ d.state = .faulted →
      exec .disarmDuty s = .next ({ u with cmdResult := 0, commandDone := true }.setDuty n idle).settle) ∧
    (s.cmdOperand.toNat ≤ 31 → d.state = .due →
      exec .disarmDuty s = .next ({ u with
        cmdResult := 0, commandDone := true
        dueQueue := s.dueQueue.filter (fun k => k != n) }.setDuty n idle).settle) ∧
    (s.cmdOperand.toNat ≤ 31 → d.state = .running → (∃ p, s.grant = some (.duty n p)) → s.frameOnBus ≠ none →
      exec .disarmDuty s = .next ({ u with cmdResult := 0xFF, unit := .pending }.setDuty n
        { d with disarmPending := true }).settle)

/-- The cut (R26): a run with DISARM_PENDING that stands between frames, and DISARM_DUTY taken between frames, make the
duty IDLE uncounted, end the grant and finish the command with OK. The frame during which DISARM_PENDING was set ends
with its own effect alone (R51): the target table counts it and a READ_CAPTURE's bytes are stored; the run stands
between frames. Model's choice: the cut at that frame's end is the event RUN_CUT, or INTER_FRAME_GAP_END where that
comes first, while a cut by DISARM_DUTY is part of that command (log entry 12, DEDUCED), and RUN_CUT leaves the state
where no cut is due (log entry 3, DESIGN CHOICE). -/
def Obligations.CutEndsTheRunUncounted : Prop :=
  ∀ (s : State) (n : Fin 32) (position : Nat), s.grant = some (.duty n position) →
    let idle := { s.duty n with state := .idle, balance := 0, held := false, stale := false, disarmPending := false }
    let cut := { s with unit := .ready, cmdResult := 0, commandDone := true, grant := none, engine := .gap }
    (s.frameOnBus = none → (s.duty n).disarmPending = true →
      exec .runCut s = .next (cut.setDuty n idle).settle ∧
      (∀ k, s.engine = .interGap k → s.softResetPending = false →
        exec .interFrameGapEnd s = .next (cut.setDuty n idle).settle)) ∧
    (s.frameOnBus ≠ none ∨ (s.duty n).disarmPending = false → exec .runCut s = .next s) ∧
    (s.phase = .running → s.unit = .ready → s.frameOnBus = none → s.engine ≠ .granted → (s.duty n).state = .running →
      s.cmdOperand.toNat = n.val →
      exec .disarmDuty s = .next ({ cut with cmdCode := 0x02 }.setDuty n idle).settle) ∧
    (∀ (a : Attempt) (c : Instr) (o : FrameOutcome) (data : List Sample), s.engine = .attempt a →
      (s.duty n).disarmPending = true → s.softResetPending = false → a.endsBy c o data → a.last o →
      let u := (s.countOutcome a.frame.target a.frame.kind o).storeReceived a.frame o data
      exec c s = .next ({ u with engine := .interGap 1 }.completeOffline a.frame.target).settle)

/-- START_CHANNEL (R80): its four results in order; OK loads FIRST_SLOT and makes the channel WAITING. -/
def Obligations.StartChannelFollowsItsOrder : Prop :=
  ∀ s : State, s.phase = .running → s.unit = .ready →
    let u := { s with cmdCode := 0x10, commandDone := true }
    let c := sixteenIndex s.cmdOperand
    let r := s.channel c
    let d := s.descriptor r.firstSlot.toNat
    (15 < s.cmdOperand.toNat → exec .startChannel s = .next { u with cmdResult := 2 }.settle) ∧
    (s.cmdOperand.toNat ≤ 15 → r.state = .waiting ∨ r.state = .busy →
      exec .startChannel s = .next { u with cmdResult := 3 }.settle) ∧
    (s.cmdOperand.toNat ≤ 15 → r.state = .idle ∨ r.state = .done ∨ r.state = .halted →
      47 < r.firstSlot.toNat ∨ d.valid = false →
      exec .startChannel s = .next { u with cmdResult := 4 }.settle) ∧
    (s.cmdOperand.toNat ≤ 15 → r.state = .idle ∨ r.state = .done ∨ r.state = .halted →
      r.firstSlot.toNat ≤ 47 → d.valid = true →
      exec .startChannel s = .next ({ u with cmdResult := 0 }.setChannel c { r with
        currentSlot := r.firstSlot, remainingCount := d.count, currentOffset := d.startOffset
        currentAddress := d.memoryStart, pending := 0, haltCause := .none, stopPending := false
        state := .waiting }).settle)

/-- STOP_CHANNEL (R96): WAITING becomes IDLE at once; BUSY waits with STOP_PENDING; any other state is WRONG_STATE.
TRIGGER_CHANNEL (R86): an arrival at the one channel, whatever its TRIGGER_LINE. Each is BAD_OPERAND above 15. -/
def Obligations.StopAndTriggerChannelActByState : Prop :=
  ∀ s : State, s.phase = .running → s.unit = .ready →
    let u := { s with cmdCode := 0x11 }
    let w := { s with cmdCode := 0x12, commandDone := true }
    let c := sixteenIndex s.cmdOperand
    let r := s.channel c
    let resting := r.state = .idle ∨ r.state = .done ∨ r.state = .halted
    let serving := r.state = .waiting ∨ r.state = .busy
    (15 < s.cmdOperand.toNat →
      exec .stopChannel s = .next { u with cmdResult := 2, commandDone := true }.settle ∧
      exec .triggerChannel s = .next { w with cmdResult := 2 }.settle) ∧
    (s.cmdOperand.toNat ≤ 15 →
      (r.state = .waiting →
        exec .stopChannel s = .next ({ u with cmdResult := 0, commandDone := true }.setChannel c
          { r with state := .idle, pending := 0 }).settle) ∧
      (r.state = .busy →
        exec .stopChannel s = .next ({ u with cmdResult := 0xFF, unit := .pending }.setChannel c
          { r with stopPending := true }).settle) ∧
      (resting → exec .stopChannel s = .next { u with cmdResult := 3, commandDone := true }.settle) ∧
      (serving → r.pending.toNat ≤ 1 →
        exec .triggerChannel s = .next ({ w with cmdResult := 0 }.setChannel c
          { r with pending := r.pending + 1 }).settle) ∧
      (serving → 2 ≤ r.pending.toNat →
        exec .triggerChannel s = .next ({ w with cmdResult := 6 }.setChannel c r.arrive).settle) ∧
      (resting → exec .triggerChannel s = .next { w with cmdResult := 3 }.settle))

/-- TARGET_ONLINE (R155): its four results in order, the checks of its table, and what OK writes. -/
def Obligations.TargetOnlineFollowsItsOrder : Prop :=
  ∀ s : State, s.phase = .running → s.unit = .ready →
    let u := { s with cmdCode := 0x20, commandDone := true }
    let t := sixteenIndex s.cmdOperand
    let r := s.target t
    let passes := (r.profile = 0 ∨ r.profile = 1) ∧ r.settleCycles.toNat ≤ 15 ∧ r.pace.toNat ≤ 15 ∧
      1 ≤ r.readyLimit.toNat ∧ r.retryLimit.toNat ≤ 3 ∧
      1 ≤ r.quarantineThreshold.toNat ∧ r.quarantineThreshold.toNat ≤ 15
    (15 < s.cmdOperand.toNat → exec .targetOnline s = .next { u with cmdResult := 2 }.settle) ∧
    (s.cmdOperand.toNat ≤ 15 → r.state = .online → exec .targetOnline s = .next { u with cmdResult := 3 }.settle) ∧
    (s.cmdOperand.toNat ≤ 15 → r.state ≠ .online → ¬passes →
      exec .targetOnline s = .next { u with cmdResult := 4 }.settle) ∧
    (s.cmdOperand.toNat ≤ 15 → r.state ≠ .online → passes →
      exec .targetOnline s = .next ({ u with cmdResult := 0 }.setTarget t
        { r with state := .online, consecFails := 0, inSync := false }).settle)

/-- TARGET_OFFLINE (R156): BAD_OPERAND above 15; OFFLINE is WRONG_STATE; at once with no frame to the target on the
bus; deferred with OFFLINE_PENDING while one is. Behind a grant decision for work on the same target, either order with
the work's first target check (R38, R90, R106, R108, R120): before it, the target is OFFLINE at once and the work
ends TARGET_DOWN without a frame; behind it, as the command acts on the state the check has left. A free value chooses
(log entry 22). -/
def Obligations.TargetOfflineWaitsForItsFrame : Prop :=
  ∀ s : State, s.phase = .running → s.unit = .ready →
    let u := { s with cmdCode := 0x21 }
    let t := sixteenIndex s.cmdOperand
    let r := s.target t
    let addressed := ∃ f, s.frameOnBus = some f ∧ f.target = t
    let unchecked := s.engine = .granted ∧ s.workTarget = some t
    (15 < s.cmdOperand.toNat →
      exec .targetOffline s = .next { u with cmdResult := 2, commandDone := true }.settle) ∧
    (s.cmdOperand.toNat ≤ 15 → ¬unchecked → r.state = .offline →
      exec .targetOffline s = .next { u with cmdResult := 3, commandDone := true }.settle) ∧
    (s.cmdOperand.toNat ≤ 15 → ¬unchecked → r.state = .quarantined ∨ r.state = .online ∧ ¬addressed →
      exec .targetOffline s = .next ({ u with cmdResult := 0, commandDone := true }.setTarget t
        { r with state := .offline }).settle) ∧
    (s.cmdOperand.toNat ≤ 15 → ¬unchecked → r.state = .online → addressed →
      exec .targetOffline s = .next ({ u with cmdResult := 0xFF, unit := .pending }.setTarget t
        { r with offlinePending := true }).settle) ∧
    (s.cmdOperand.toNat ≤ 15 → unchecked → r.state = .online →
      if Config.commandBeforeCheck s.freeCount then
        ∃ v : State, exec .targetOffline s = .next v.settle ∧
          v = { u with cmdResult := 0, commandDone := true, freeCount := s.freeCount + 1 }.setTarget t
            { r with state := .offline } ∧
          v.settle.grant = none ∧ v.settle.engine = .gap ∧
          (∀ n position, s.grant = some (.duty n position) →
            v.settle.duty n = (s.runFailed n .targetDown position).duty n) ∧
          (∀ c acknowledge, s.grant = some (.channel c acknowledge) → (s.channel c).state = .busy →
            v.settle.channel c = (s.unitEnd c .targetDown).channel c) ∧
          (∀ q : Request, s.grant = some .host → s.inFlight = some q → v.settle.inFlight = none ∧
            ∃ disposed : List Request, (∃ rest, s.requests = disposed ++ rest) ∧
              v.settle.completions = s.completions ++ disposed.map (fun x => ⟨x.tag, .targetDown, 0, 0⟩)
                ++ [(⟨q.tag, .targetDown, 0, 0⟩ : Completion)])
      else exec .targetOffline s = exec .targetOffline { s with freeCount := s.freeCount + 1 }.firstCheck)

/-- SUBMIT (R104): an invalid staging record is BAD_OPERAND, no free slot is NO_SLOT, else a copy of the record is
appended at the tail of the request queue. -/
def Obligations.SubmitChecksAndAppends : Prop :=
  ∀ s : State, s.phase = .running → s.unit = .ready →
    let u := { s with cmdCode := 0x30, commandDone := true }
    let address := (s.staging[6] ++ s.staging[5]).toNat
    let passes := s.staging[1].toNat ≤ 15 ∧ (s.staging[2] = 0 ∨ s.staging[2] = 1) ∧
      1 ≤ s.staging[4].toNat ∧ s.staging[4].toNat ≤ 16 ∧ 0x0D00 ≤ address ∧ address + s.staging[4].toNat ≤ 0x2000
    (¬passes → exec .submit s = .next { u with cmdResult := 2 }.settle) ∧
    (passes → s.slotsFree = 0 → exec .submit s = .next { u with cmdResult := 5 }.settle) ∧
    (passes → s.slotsFree ≠ 0 → ∃ r : Request, exec .submit s = .next { u with
        cmdResult := 0, requests := s.requests ++ [r] }.settle ∧
      r.tag = s.staging[0] ∧ r.target.val = s.staging[1].toNat ∧ (r.isWrite = true ↔ s.staging[2] = 1) ∧
      r.offset = s.staging[3] ∧ r.length = s.staging[4].toNat ∧ r.address = address ∧
      r.forceSync = s.staging[7].getLsbD 0)

/-- FLUSH_HOST (R112): every queued request becomes a FLUSHED completion record in queue order, the in-flight request
is not touched, and SLOTS_FREE stays. CPL_POP (R111): the head completion record leaves and its slot is freed; on an
empty queue nothing happens. -/
def Obligations.FlushAndPopMoveTheQueues : Prop :=
  ∀ s : State, s.phase = .running →
    (s.unit = .ready → ∃ u : State, exec .flushHost s = .next u.settle ∧
      u = { s with
        cmdCode := 0x31, cmdResult := 0, commandDone := true, requests := [], hostWait := 0
        completions := s.completions ++ s.requests.map (fun r => ⟨r.tag, .flushed, 0, 0⟩) } ∧
      u.slotsFree = s.slotsFree ∧ u.inFlight = s.inFlight) ∧
    ∀ v : Byte,
      (s.completions = [] → exec (.cplPop v) s = .next s) ∧
      (∀ c rest, s.completions = c :: rest → s.slotsHeld ≤ 8 → ∃ t, exec (.cplPop v) s = .next t ∧
        t = { s with completions := rest } ∧ t.slotsFree = s.slotsFree + 1)

/-- QUIET_ENTER (R164): from ACTIVE to DRAINING with OK, else WRONG_STATE. QUIET_EXIT (R170), row by row of its table, with
stale marking and BUS_STATE where the table has them. Stale marking (R171) sets STALE on every HOLD duty that is ARMED or
DUE, and changes nothing else. -/
def Obligations.QuietEnterAndExitFollowTheirRules : Prop :=
  ∀ s : State, s.phase = .running → s.unit = .ready →
    let u := { s with cmdCode := 0x41, commandDone := true }
    let ok := { u with cmdResult := 0 }
    let wrong := { u with cmdResult := 3 }
    let quietOnBus := s.engine = .broadcast .quiet
    let e := { s with cmdCode := 0x40, commandDone := true }
    (s.busState = .active → exec .quietEnter s = .next { e with cmdResult := 0, busState := .draining }.settle) ∧
    (s.busState ≠ .active → exec .quietEnter s = .next { e with cmdResult := 3 }.settle) ∧
    (s.busState = .active → exec .quietExit s = .next wrong.settle) ∧
    (s.busState = .draining → ¬quietOnBus → exec .quietExit s = .next { ok with busState := .active }.settle) ∧
    (s.busState = .draining ∨ s.busState = .excursion → quietOnBus → s.purpose ≠ .exit →
      exec .quietExit s = .next { ok with purpose := .exit }.settle) ∧
    (s.busState = .draining ∨ s.busState = .excursion → quietOnBus → s.purpose = .exit →
      exec .quietExit s = .next wrong.settle) ∧
    (s.busState = .quiet →
      exec .quietExit s = .next { ok.markStale with busState := .waking, purpose := .exit }.settle) ∧
    (s.busState = .waking → s.purpose ≠ .exit →
      exec .quietExit s = .next { ok.markStale with purpose := .exit }.settle) ∧
    (s.busState = .waking → s.purpose = .exit → exec .quietExit s = .next wrong.settle) ∧
    (s.busState = .excursion → ¬quietOnBus →
      exec .quietExit s = .next { ok.markStale with
        busState := .active, purpose := .none, busStateCause := true }.settle) ∧
    s.markStale = { s with duties := s.markStale.duties } ∧
    ∀ n : Fin 32, s.markStale.duty n =
      if (s.duty n).quietPolicy = 0 ∧ ((s.duty n).state = .armed ∨ (s.duty n).state = .due)
      then { s.duty n with stale := true } else s.duty n

/-- SOFT_RESET (R183): deferred while a frame or a broadcast is on the bus, else its effects at once. The frame it waits
for ends with its ordinary effect on the target table and on memory, no further frame starts (R128), the grant stands
until the effects (R48, R117), and an in-flight request keeps the record that its data frame, or a failed SYNC, gives
it, FLUSHED otherwise (R115). SOFT_RESET_EFFECTS then applies the effects and finishes the command with OK. Behind a
grant decision whose work has not made its first target check, either order with that check: before it, the work stands
between frames and the effects come at once; a free value chooses (log entry 22). Model's choice: the effects at a
frame's end are an event of their own (log entry 13, DEDUCED), and the rows leave the state where the part does not
raise them (log entry 3, DESIGN CHOICE). -/
def Obligations.SoftResetWaitsForTheBus : Prop :=
  ∀ s : State,
    let quietBus := s.frameOnBus = none ∧ s.broadcastOnBus = none
    (s.phase = .running → s.unit = .ready → ¬quietBus →
      exec .softReset s = .next { s with cmdCode := 0x7F, cmdResult := 0xFF, unit := .pending }.settle) ∧
    (s.phase = .running → s.unit = .ready → s.engine ≠ .granted → quietBus → exec .softReset s =
      .next { ({ s with cmdCode := 0x7F }).softResetEffects with cmdResult := 0, commandDone := true }.settle) ∧
    (s.phase = .running → s.unit = .ready → s.engine = .granted →
      if Config.commandBeforeCheck s.freeCount then exec .softReset s = .next
        { ({ s with cmdCode := 0x7F, freeCount := s.freeCount + 1 }).softResetEffects with
          cmdResult := 0, commandDone := true }.settle
      else exec .softReset s = exec .softReset { s with freeCount := s.freeCount + 1 }.firstCheck) ∧
    (s.unit = .pending → s.cmdCode = 0x7F → quietBus → exec .softResetEffects s =
      .next { s.softResetEffects with unit := .ready, cmdResult := 0, commandDone := true }.settle) ∧
    (¬quietBus ∨ s.unit ≠ .pending ∨ s.cmdCode ≠ 0x7F → exec .softResetEffects s = .next s) ∧
    (s.unit = .pending → s.cmdCode = 0x7F → ∀ (a : Attempt) (c : Instr) (o : FrameOutcome) (data : List Sample),
      s.engine = .attempt a → a.endsBy c o data → a.last o →
      let u := (s.countOutcome a.frame.target a.frame.kind o).storeReceived a.frame o data
      let ends := fun kept => exec c s =
        .next ({ u with engine := .interGap 1, softEnd := kept }.completeOffline a.frame.target).settle
      (s.grant ≠ some .host → ends s.softEnd) ∧
      (∀ r : Request, s.grant = some .host → s.inFlight = some r →
        (o = .ok ∧ a.frame.kind = .sync → ends none) ∧
        (¬(o = .ok ∧ a.frame.kind = .sync) → ends (some
          ⟨r.tag, o.condition, if o = .ok then BitVec.ofNat 8 r.length else 0, BitVec.ofNat 8 a.count⟩)))) ∧
    (s.unit = .pending → s.cmdCode = 0x7F → ∀ k, s.engine = .interGap k → exec .interFrameGapEnd s = .next s) ∧
    (s.inFlight = none → s.softCompletion = []) ∧
    (∀ r : Request, s.inFlight = some r → s.softCompletion = [s.softEnd.getD ⟨r.tag, .flushed, 0, 0⟩])

/-- The soft-reset effects of every block. Every duty record takes its hardware fields at zero and keeps its host
fields (R29); every channel and target record changes as R101 and R161 give; the queues end as R115 gives; the work
between frames ends with its grant (R117, R128); the quiet controller acts by the bus state (R175). Everything that R183
keeps is kept, CMD_OPERAND, NOTICE_CAUSE, read latches and write holds among it. -/
def Obligations.SoftResetEffectsOfEveryBlock : Prop :=
  ∀ s : State,
    let u := s.softResetEffects
    (∀ n : Fin 32, u.duty n = { s.duty n with
      state := .idle, balance := 0, remaining := 0, consecFails := 0, lateCount := 0, held := false, stale := false
      disarmPending := false, lastFailure := .none, failPosition := 0, completedRuns := 0, noticeRunDone := false
      noticeRunFailed := false, noticeLate := false, noticeFault := false }) ∧
    (∀ c : Fin 16, u.channel c = { s.channel c with
      state := .idle, pending := 0, stopPending := false
      noticeEnd := false, noticeChain := false, noticeHalt := false }) ∧
    (∀ t : Fin 16, u.target t = { s.target t with noticeQuarantined := false }) ∧
    u = { s with
      duties := u.duties, channels := u.channels, targets := u.targets, dueQueue := [], channelPointer := 15
      requests := [], inFlight := none, softEnd := none, grant := none, hostWait := 0
      completions := s.completions ++ s.softCompletion ++ s.requests.map (fun r => ⟨r.tag, .flushed, 0, 0⟩)
      engine := u.engine, busState := u.busState, purpose := u.purpose
      commandDone := false, busStateCause := false, guardCause := false, collisionCause := false
      readyCause := false } ∧
    u.noticeSet = [] ∧ u.slotsFree = s.slotsFree ∧ u.intCause = (if u.completions = [] then 0x0000 else 0x0002) ∧
    (s.engine = .granted ∨ (∃ k, s.engine = .interGap k) → u.engine = .gap) ∧
    (s.engine ≠ .granted → (∀ k, s.engine ≠ .interGap k) → u.engine = s.engine) ∧
    (s.busState = .active → u.busState = .active ∧ u.purpose = s.purpose) ∧
    (s.busState = .draining ∨ s.busState = .excursion → u.busState = .active ∧ u.purpose = .none) ∧
    (s.busState = .quiet ∨ s.busState = .waking → u.busState = .waking ∧ u.purpose = .exit)

/-- A code that names no command returns BAD_COMMAND (R180); while the unit is PENDING every write of CMD_CODE is
discarded and sets COLLISION alone, whichever command its code names (R181). -/
def Obligations.UnknownAndCollidingCodes : Prop :=
  ∀ s : State, s.phase = .running →
    (∀ code : Byte, code ∉ commandCodes → s.unit = .ready →
      exec (.badCommand code) s = .next { s with cmdCode := code, cmdResult := 1, commandDone := true }.settle) ∧
    (s.unit = .pending → ∀ (code : Byte) (c : Instr),
      c = .collision code ∨ c ∈ [Instr.armDuty, .disarmDuty, .startChannel, .stopChannel, .triggerChannel,
        .targetOnline, .targetOffline, .submit, .flushHost, .quietEnter, .quietExit, .softReset] →
      exec c s = .next { s with collisionCause := true })

/-! ## Host window -/

/-- The setting registers. CLOCK_MHZ, BUS_DIV and PULLIN take a byte (R3, R130, R52), BUS_DIV behind a grant decision in
either order with the first target check, with which the work's frame latches it (free value, log entry 22). TM_PTR,
TICK_PERIOD, WAKE_US and LINE_EDGE take, at the high-byte write, the byte joined with the held low byte, or with the
register's current low byte when the hold is empty, and empty the hold (R178, R57, R4, R163, R73). A value out of range
is ignored. -/
def Obligations.SettingsTakeValuesInRange : Prop :=
  ∀ (s : State) (v : Byte), s.phase = .running →
    let held := fun w => v ++ (s.hold w).getD (lowByte (s.half (holdRegister w)))
    (8 ≤ v.toNat ∧ v.toNat ≤ 32 → exec (.clockMhzWrite v) s = .next { s with clockMhz := v }) ∧
    (v.toNat < 8 ∨ 32 < v.toNat → exec (.clockMhzWrite v) s = .next s) ∧
    (2 ≤ v.toNat ∧ v.toNat ≤ 64 →
      let t := { s with freeCount := s.freeCount + 1 }
      (s.engine ≠ .granted → exec (.busDivWrite v) s = .next { s with busDiv := v }) ∧
      (s.engine = .granted → exec (.busDivWrite v) s =
        .next { (if Config.commandBeforeCheck s.freeCount then t else t.firstCheck) with busDiv := v })) ∧
    (v.toNat < 2 ∨ 64 < v.toNat → exec (.busDivWrite v) s = .next s) ∧
    exec (.pullinWrite v) s = .next { s with pullin := v.getLsbD 0 }.settle ∧
    (∃ t, exec (.tmPtrWrite v) s = .next t ∧ t = { s.setHold .tmPtr none with tmPtr := t.tmPtr } ∧
      t.tmPtr.toNat = (held .tmPtr).toNat % 8192) ∧
    (10 ≤ (held .tickPeriod).toNat →
      exec (.tickPeriodWrite v) s = .next { s.setHold .tickPeriod none with tickPeriod := held .tickPeriod }) ∧
    ((held .tickPeriod).toNat < 10 → exec (.tickPeriodWrite v) s = .next (s.setHold .tickPeriod none)) ∧
    (1 ≤ (held .wakeUs).toNat ∧ (held .wakeUs).toNat ≤ 4095 →
      exec (.wakeUsWrite v) s = .next { s.setHold .wakeUs none with wakeUs := held .wakeUs }) ∧
    (held .wakeUs = 0 ∨ 4095 < (held .wakeUs).toNat → exec (.wakeUsWrite v) s = .next (s.setHold .wakeUs none)) ∧
    exec (.lineEdgeWrite v) s = .next { s.setHold .lineEdge none with lineEdge := held .lineEdge }

/-- The seven interrupt causes in their bits, and INT#: driven low exactly while a present cause is enabled (R184, R186,
R187). INT_CAUSE_WRITE clears each sticky cause whose bit is 1 and touches no level cause (R186); INT_ENABLE_WRITE sets
the seven enables, bits 7 ... 15 reading 0 (R187). -/
def Obligations.InterruptCausesEnablesAndLine : Prop :=
  ∀ s : State,
    (s.intCause.getLsbD 0 = true ↔ ∃ m, m < 64 ∧ s.memberCauses m ≠ 0) ∧
    (s.intCause.getLsbD 1 = true ↔ s.completions ≠ []) ∧
    s.intCause.getLsbD 2 = s.commandDone ∧ s.intCause.getLsbD 3 = s.busStateCause ∧
    s.intCause.getLsbD 4 = s.guardCause ∧ s.intCause.getLsbD 5 = s.collisionCause ∧
    s.intCause.getLsbD 6 = s.readyCause ∧ (∀ k, 7 ≤ k → s.intCause.getLsbD k = false) ∧
    (s.intLow = true ↔ ∃ k, s.intCause.getLsbD k = true ∧ s.intEnable.getLsbD k = true) ∧
    ∀ high : Byte, s.phase = .running →
      let v := high ++ (s.hold .intCause).getD (lowByte s.intCause)
      let w := high ++ (s.hold .intEnable).getD (lowByte s.intEnable)
      (∃ t : State, exec (.intCauseWrite high) s = .next t ∧
        (∀ k, k < 16 → t.intCause.getLsbD k =
          (s.intCause.getLsbD k && !(decide (2 ≤ k ∧ k ≤ 6) && v.getLsbD k))) ∧
        t = { s.setHold .intCause none with
          commandDone := t.commandDone, busStateCause := t.busStateCause, guardCause := t.guardCause
          collisionCause := t.collisionCause, readyCause := t.readyCause }) ∧
      (∃ t : State, exec (.intEnableWrite high) s = .next t ∧
        t = { s.setHold .intEnable none with intEnable := t.intEnable } ∧
        ∀ k, t.intEnable.getLsbD k = (decide (k ≤ 6) && w.getLsbD k))

/-- Sixteen-bit access (R177, R178). A low-byte read answers the low byte and latches the high byte of the same
value, which the high-byte read answers whatever the register has become meanwhile; with an empty latch it answers
the high byte as it stands. A low-byte write fills the hold and leaves the register. -/
def Obligations.SixteenBitAccessIsWhole : Prop :=
  ∀ s : State, s.phase = .running →
    (∀ r : Reg16, ∃ t, exec (.lowByteRead r) s = .next t ∧
      t = { s with hostData := lowByte (s.half r), readLatch := t.readLatch } ∧
      t.latch r = some (highByte (s.half r)) ∧ (∀ q, q ≠ r → t.latch q = s.latch q) ∧
      ∀ u : State, u.phase = .running → u.latch r = t.latch r →
        ∃ w, exec (.highByteRead r) u = .next w ∧
          w = { u with hostData := highByte (s.half r), readLatch := w.readLatch } ∧ w.latch r = none ∧
          ∀ q, q ≠ r → w.latch q = u.latch q) ∧
    (∀ r : Reg16, s.latch r = none → exec (.highByteRead r) s = .next { s with hostData := highByte (s.half r) }) ∧
    (∀ (w : WReg16) (v : Byte), ∃ t, exec (.lowByteWrite w v) s = .next t ∧
      t = { s with writeHold := t.writeHold } ∧ t.hold w = some v ∧ ∀ q, q ≠ w → t.hold q = s.hold q)

/-- Plain registers. A read returns the register as it stands and changes nothing else: STATUS (R179), CMD_OPERAND,
CMD_CODE and CMD_RESULT (R180), the staging area (R102), the completion head, zeros while the queue is empty, and
CPL_COUNT (R110), SLOTS_FREE (R103), CLOCK_MHZ, BUS_DIV, PULLIN and LINE_LEVEL; CPL_POP and every unused offset read 0
(R176). REGISTER_WRITE: CMD_OPERAND and the staging bytes take the byte; a write of a read-only register, of
NOTICE_MEMBER or of an unused offset is ignored (R176). The table has no row for a plain read: it is sent as the
access of ACCESS_DURING_CLEAR (model's choice, log entry 16), and so may every other access be. -/
def Obligations.PlainRegisterReadsAndWrites : Prop :=
  ∀ (s : State) (v : Byte), s.phase = .running →
    let answers := fun (offset : BitVec 6) (b : Byte) =>
      exec (.accessDuringClear (.read offset)) s = .next { s with hostData := b }
    let busStateCode := match s.busState with
      | .active => 0 | .draining => 1 | .quiet => 2 | .waking => 3 | .excursion => 4
    answers 0x02 s.status ∧
    s.status.toNat = 1 + (if s.unit = .pending then 2 else 0) + 4 * busStateCode ∧
    answers 0x04 s.cmdOperand ∧ answers 0x05 s.cmdCode ∧ answers 0x06 s.cmdResult ∧
    (∀ k : Fin 8, answers (0x10 + BitVec.ofNat 6 k.val) s.staging[k]) ∧
    (s.completions = [] → ∀ k, k < 4 → answers (0x18 + BitVec.ofNat 6 k) 0) ∧
    (∀ c rest, s.completions = c :: rest →
      answers 0x18 c.tag ∧ answers 0x19 c.status.code ∧ answers 0x1A c.bytes ∧ answers 0x1B c.attempts) ∧
    answers 0x1D (BitVec.ofNat 8 s.completions.length) ∧
    answers 0x1E (BitVec.ofNat 8
      (8 - (s.requests.length + (if s.inFlight = none then 0 else 1) + s.completions.length))) ∧
    answers 0x28 s.clockMhz ∧ answers 0x2E s.busDiv ∧ answers 0x2F (if s.pullin then 1 else 0) ∧
    answers 0x32 s.lineLevel ∧
    (∀ offset : BitVec 6, offset.toNat ∈ [0x03, 0x07, 0x0B, 0x0E, 0x0F, 0x1C, 0x1F, 0x23, 0x29] ∨ 0x33 ≤ offset.toNat →
      answers offset 0) ∧
    (∀ r : Reg16, exec (.accessDuringClear (.read (lowOffset r))) s = exec (.lowByteRead r) s ∧
      exec (.accessDuringClear (.read (lowOffset r + 1))) s = exec (.highByteRead r) s) ∧
    exec (.accessDuringClear (.read 0x0A)) s = exec .tmDataRead s ∧
    exec (.accessDuringClear (.read 0x20)) s = exec .noticeMemberRead s ∧
    exec (.registerWrite 0x04 v) s = .next { s with cmdOperand := v } ∧
    (∀ k : Fin 8, exec (.registerWrite (0x10 + BitVec.ofNat 6 k.val) v) s =
      .next { s with staging := s.staging.set k v }) ∧
    (∀ offset : BitVec 6, offset ∉ offsetsWithOwnWriteRow → offset ≠ 0x04 →
      offset.toNat < 0x10 ∨ 0x17 < offset.toNat → exec (.registerWrite offset v) s = .next s) ∧
    (∀ offset : BitVec 6, exec (.accessDuringClear (.write offset v)) s = .next (s.writeRunning offset v)) ∧
    exec (.tmDataWrite v) s = .next (s.writeRunning 0x0A v) ∧ exec (.cplPop v) s = .next (s.writeRunning 0x1C v) ∧
    (∀ offset : BitVec 6, offset ∉ offsetsWithOwnWriteRow →
      exec (.registerWrite offset v) s = .next (s.writeRunning offset v))

/-- TM_DATA (R58, R59, R63): a read answers the byte at TM_PTR; a write that protection takes replaces that byte and
no other byte of table memory; one it discards sets GUARD and captures the first address. The pointer advances with
its wrap in every case. A taken write changes the byte of one host field of the record at the address, or the one byte
of `mem`, and the attempt on the bus only where it is a WRITE that sends the byte (R65). A write comes behind the first
target check of work just granted (log entry 22). -/
def Obligations.TableDataPortMovesOneByte : Prop :=
  ∀ (s : State) (v : Byte), s.phase = .running →
    let w := s.firstCheck
    let p := s.tmPtr.toNat
    exec .tmDataRead s = .next { s with hostData := s.tableByte s.tmPtr, tmPtr := s.tmPtr + 1 } ∧
    (w.takesWrite s.tmPtr = true → memWf w.mem = true → ∃ t, exec (.tmDataWrite v) s = .next t ∧
      t.tableByte s.tmPtr = v ∧ (∀ a, a ≠ s.tmPtr → t.tableByte a = w.tableByte a) ∧
      t = { w with
        tmPtr := s.tmPtr + 1, targets := t.targets, channels := t.channels, duties := t.duties, mem := t.mem
        engine := t.engine, freeCount := t.freeCount } ∧
      (0x0600 ≤ p → t.mem = memWrite w.mem p v ∧ t.targets = w.targets ∧ t.channels = w.channels ∧
        t.duties = w.duties) ∧
      (p < 0x0600 → t.mem = w.mem ∧
        (∀ k, t.target k = { w.target k with
          profile := (t.target k).profile, settleCycles := (t.target k).settleCycles, pace := (t.target k).pace
          readyLimit := (t.target k).readyLimit, retryLimit := (t.target k).retryLimit
          quarantineThreshold := (t.target k).quarantineThreshold }) ∧
        (∀ c, t.channel c = { w.channel c with
          triggerLine := (t.channel c).triggerLine, firstSlot := (t.channel c).firstSlot }) ∧
        (∀ n, t.duty n = { w.duty n with
          target := (t.duty n).target, postponeLimit := (t.duty n).postponeLimit, interval := (t.duty n).interval
          phase := (t.duty n).phase, pullinLimit := (t.duty n).pullinLimit, listFirst := (t.duty n).listFirst
          listLength := (t.duty n).listLength, faultThreshold := (t.duty n).faultThreshold
          quietPolicy := (t.duty n).quietPolicy, notifyOnRun := (t.duty n).notifyOnRun })) ∧
      ((∀ (a : Attempt) (b : Nat), w.engine = .attempt a → a.frame.kind = .write → a.frame.path = .area b →
          p < b ∨ b + a.frame.length ≤ p) → t.engine = w.engine ∧ t.freeCount = w.freeCount)) ∧
    (w.takesWrite s.tmPtr = false → exec (.tmDataWrite v) s = .next { w with
      tmPtr := s.tmPtr + 1, guardCause := true, guardAddr := if s.guardCause then s.guardAddr else s.tmPtr })

/-- A taken write to a data-area byte that a WRITE attempt on the bus sends (R65): the attempt sends the new byte when
it has not driven that byte yet, and the old one otherwise; how many bytes it has driven is left open (a free
value), but never falls within the attempt. -/
def Obligations.WriteRacesTheFrameByteByByte : Prop :=
  ∀ (s : State) (v : Byte) (a : Attempt) (b i : Nat), s.phase = .running → s.engine = .attempt a →
    a.frame.kind = .write → a.frame.path = .area b → i < a.frame.length → s.tmPtr.toNat = b + i →
    Config.dataBase ≤ b →
    ∃ t done, exec (.tmDataWrite v) s = .next t ∧ a.driven ≤ done ∧
      t.engine = .attempt { a with driven := done, sent := if i < done then a.sent else a.sent.set i v } ∧
      t.memByte s.tmPtr.toNat = memRead (memWrite s.mem s.tmPtr.toNat v) s.tmPtr.toNat

/-- Record protection region by region (R60, R61). -/
def Obligations.ProtectionFollowsTheOwnersState : Prop :=
  ∀ s : State,
    (∀ (t : Fin 16) (off : Nat), off < 16 →
      (s.takesWrite (BitVec.ofNat 13 (16 * t.val + off)) = true ↔ off ≤ 5 ∧ (s.target t).state = .offline)) ∧
    (∀ (c : Fin 16) (off : Nat), off < 16 →
      (s.takesWrite (BitVec.ofNat 13 (0x0100 + 16 * c.val + off)) = true ↔
        off ≤ 1 ∧ ((s.channel c).state = .idle ∨ (s.channel c).state = .done ∨ (s.channel c).state = .halted))) ∧
    (∀ (n : Fin 32) (off : Nat), off < 32 →
      (s.takesWrite (BitVec.ofNat 13 (0x0200 + 32 * n.val + off)) = true ↔
        off ≤ 11 ∧ ((s.duty n).state = .idle ∨ (s.duty n).state = .faulted))) ∧
    (∀ slot off : Nat, slot < 48 → off < 16 →
      (s.takesWrite (BitVec.ofNat 13 (0x0600 + 16 * slot + off)) = true ↔
        off ≤ 13 ∧ ∀ c, ((s.channel c).state = .waiting ∨ (s.channel c).state = .busy) →
          (s.channel c).currentSlot.toNat ≠ slot)) ∧
    (∀ i off : Nat, i < 128 → off < 8 →
      (s.takesWrite (BitVec.ofNat 13 (0x0900 + 8 * i + off)) = true ↔
        ∀ n, ((s.duty n).state = .armed ∨ (s.duty n).state = .due ∨ (s.duty n).state = .running) →
          ¬((s.duty n).listFirst.toNat ≤ i ∧ i < (s.duty n).listFirst.toNat + (s.duty n).listLength.toNat))) ∧
    ∀ a : BitVec 13, 0x0D00 ≤ a.toNat → s.takesWrite a = true

/-- NOTICE_MEMBER_READ (R185): the lowest member leaves the set with its causes and kind in NOTICE_CAUSE, its record
loses its notices and nothing else, and every other record stands; an empty set answers 0xFF and loads 0. The latch of
NOTICE_CAUSE empties (R177), the other latches stand. -/
def Obligations.NoticeReadTakesTheLowestMember : Prop :=
  ∀ s : State, s.phase = .running →
    (∀ m, m < 64 → s.memberCauses m ≠ 0 → (∀ k, k < m → s.memberCauses k = 0) →
      ∃ t, exec .noticeMemberRead s = .next t ∧ t.hostData = BitVec.ofNat 8 m ∧
        t.noticeCause = (if m < 32 then (0x01 : Byte) else if m < 48 then 0x02 else 0x03) ++ s.memberCauses m ∧
        t.memberCauses m = 0 ∧ (∀ k, k ≠ m → t.memberCauses k = s.memberCauses k) ∧
        t.latch .noticeCause = none ∧ (∀ r, r ≠ .noticeCause → t.latch r = s.latch r) ∧
        (∀ n, t.duty n = if n.val = m then { s.duty n with
          noticeRunDone := false, noticeRunFailed := false, noticeLate := false, noticeFault := false } else s.duty n) ∧
        (∀ c, t.channel c = if 32 + c.val = m then { s.channel c with
          noticeEnd := false, noticeChain := false, noticeHalt := false } else s.channel c) ∧
        (∀ k, t.target k = if 48 + k.val = m then { s.target k with noticeQuarantined := false } else s.target k) ∧
        t = { s with
          hostData := t.hostData, noticeCause := t.noticeCause, readLatch := t.readLatch
          targets := t.targets, channels := t.channels, duties := t.duties }) ∧
    ((∀ m, m < 64 → s.memberCauses m = 0) →
      ∃ t, exec .noticeMemberRead s = .next t ∧ t.latch .noticeCause = none ∧
        (∀ r, r ≠ .noticeCause → t.latch r = s.latch r) ∧
        t = { s with hostData := 0xFF, noticeCause := 0, readLatch := t.readLatch })

/-! ## The end of an event -/

/-- The end of an event, and of an arrival of an edge (R75), changes only the work of the blocks: target, channel and duty records, the queues, the grant, the
bus engine with its latched divisor, the bus state and its purpose, and the command unit with CMD_RESULT and
COMMAND_DONE; and so what the window shows of them: STATUS, CMD_RESULT, CPL_COUNT, the completion head and SLOTS_FREE,
the level causes and COMMAND_DONE. Everything else stands: the setting registers, CMD_OPERAND, CMD_CODE, the staging area,
read latches and write holds, TM_PTR, GUARD_ADDR, INT_ENABLE, NOTICE_CAUSE, the other sticky causes, LINE_LEVEL, every
byte of memory outside the records, the timebase and the wake timer. -/
def Obligations.SettleChangesWorkOnly : Prop :=
  ∀ s : State, s.settle = s.withWorkOf s.settle ∧ s.react = s.withWorkOf s.react

/-! ## Arbitration -/

/-- GAP_END makes the bus free, and the event's end decides (R119). After the end of an event no WAITING channel holds a
trigger for a target that is not ONLINE (R84), the head of the request queue has an ONLINE target (R106), work that an
earlier event granted has made its first target check, an eligible urgent WAKE entry has taken the bus out of QUIET
(R167), and a free bus has nothing to do: no candidate of the bus state and no broadcast to send, unless a SOFT_RESET
waits for its effects (R165, R168, R169, R128). Model's choice: GAP_END leaves a state where no gap is in progress (log
entry 3), and the first check is made at the end of the next event at the latest (log entry 22). -/
def Obligations.NothingWaitsAfterAnEvent : Prop :=
  ∀ s : State,
    (s.engine = .gap → exec .gapEnd s = .next { s with engine := .free }.settle) ∧
    (s.engine ≠ .gap → exec .gapEnd s = .next s) ∧
    (∀ c : Fin 16, (s.settle.channel c).state = .waiting → (s.settle.channel c).pending ≠ 0 →
      s.settle.online (s.settle.currentDescriptor c).target = true) ∧
    (∀ r rest, s.settle.requests = r :: rest → s.settle.online r.target = true) ∧
    (s.engine = .granted → s.settle.engine ≠ .granted) ∧
    (s.settle.busState = .quiet → s.settle.callsExcursion = false) ∧
    (s.settle.engine = .free → s.settle.grant = none → s.settle.softResetPending = false →
      s.settle.choice = none ∧ s.settle.broadcastDue = none)

/-- The order in ACTIVE on a free bus (R122 with R35, R53, R123): the urgent entry nearest the head; a channel, the
lowest above the pointer first; the head of the request queue, which goes before the channels at a host wait count of
4; the eligible entry nearest the head; the pull-in candidate of fewest REMAINING ticks, the lowest index among equals.
An entry is eligible when its target is ONLINE and it is not held (R34), and GAP_END takes this decision where no halt
and no disposal is due first (R119). -/
def Obligations.ActiveOrderOfTheArbiter : Prop :=
  ∀ s : State, s.engine = .free → s.grant = none → s.softResetPending = false → s.busState = .active →
    let urgent := fun n => s.eligible n = true ∧ s.slackOf n = 0
    let presented := fun c => (s.channel c).state = .waiting ∧ (s.channel c).pending ≠ 0
    let rank := fun c : Fin 16 => (c.val + 15 - s.channelPointer.val) % 16
    let pullin := fun n => s.pullin = true ∧ (s.duty n).state = .armed ∧ s.eligible n = true ∧
      (s.duty n).balance < ((s.duty n).pullinLimit.toNat : Int)
    (∀ n, s.eligible n = true ↔ (s.target (s.dutyTarget n)).state = .online ∧ (s.duty n).held = false) ∧
    ((∀ c, presented c → s.online (s.currentDescriptor c).target = true) →
      (∀ r rest, s.requests = r :: rest → s.online r.target = true) →
      exec .gapEnd { s with engine := .gap } = .next s.arbitrate.disposeHeads) ∧
    (∀ before n after, s.dueQueue = before ++ n :: after → (∀ m ∈ before, ¬urgent m) → urgent n →
      s.arbitrate = s.grantDuty n) ∧
    ((∀ n ∈ s.dueQueue, ¬urgent n) →
      (∀ c, presented c → (∀ e, presented e → rank c ≤ rank e) → s.hostWait ≠ 4 ∨ s.requests = [] →
        s.arbitrate = s.grantChannel c) ∧
      (∀ r rest, s.requests = r :: rest → s.hostWait = 4 ∨ (∀ c, ¬presented c) → s.arbitrate = s.grantHost r) ∧
      ((∀ c, ¬presented c) → s.requests = [] →
        (∀ before n after, s.dueQueue = before ++ n :: after → (∀ m ∈ before, s.eligible m = false) →
          s.eligible n = true → s.arbitrate = s.grantDuty n) ∧
        ((∀ n ∈ s.dueQueue, s.eligible n = false) →
          (∀ n, pullin n → (∀ m, pullin m → (s.duty n).remaining.toNat < (s.duty m).remaining.toNat ∨
              (s.duty n).remaining = (s.duty m).remaining ∧ n ≤ m) → s.arbitrate = s.grantDuty n) ∧
          ((∀ n, ¬pullin n) → s.arbitrate = s))))

/-- The orders of the other bus states on a free bus. DRAINING: the eligible entry nearest the head, then the freshening
candidate of lowest index (R125), and the QUIET broadcast only when no queue entry and no stale duty has an ONLINE
target (R165). EXCURSION: the eligible entry nearest the head (R126), else the QUIET broadcast (R169). WAKING: no grant, and
the WAKE broadcast until its wait runs (R168). QUIET: nothing (R116). GAP_END takes this decision where no halt, no
disposal and no excursion is due first (R119), and an entry is eligible as R34 says. -/
def Obligations.OtherOrdersOfTheArbiter : Prop :=
  ∀ s : State, s.engine = .free → s.grant = none → s.softResetPending = false →
    let fresh := fun n => (s.duty n).state = .armed ∧ s.eligible n = true ∧ (s.duty n).stale = true
    let idle := ∀ n ∈ s.dueQueue, s.eligible n = false
    let urgentWake := fun n => s.eligible n = true ∧ s.slackOf n = 0 ∧ (s.duty n).quietPolicy = 1
    ((∀ c, (s.channel c).state = .waiting → (s.channel c).pending ≠ 0 →
        s.online (s.currentDescriptor c).target = true) →
      (∀ r rest, s.requests = r :: rest → s.online r.target = true) →
      (s.busState = .quiet → ∀ n ∈ s.dueQueue, ¬urgentWake n) →
      exec .gapEnd { s with engine := .gap } = .next s.arbitrate.disposeHeads) ∧
    (s.busState = .quiet → (∃ n ∈ s.dueQueue, urgentWake n) →
      s.startExcursion = { s with busState := .waking, purpose := .excursion }) ∧
    (s.busState = .draining ∨ s.busState = .excursion → ∀ before n after, s.dueQueue = before ++ n :: after →
      (∀ m ∈ before, s.eligible m = false) → s.eligible n = true → s.arbitrate = s.grantDuty n) ∧
    (s.busState = .draining → idle → ∀ n, fresh n → (∀ m, m < n → ¬fresh m) → s.arbitrate = s.grantDuty n) ∧
    (s.busState = .draining → (∀ n ∈ s.dueQueue, s.online (s.dutyTarget n) = false) →
      (∀ n, (s.duty n).stale = true → s.online (s.dutyTarget n) = false) → s.arbitrate = s.startBroadcast .quiet) ∧
    (s.busState = .draining → idle → (∀ n, ¬fresh n) →
      (∃ n ∈ s.dueQueue, s.online (s.dutyTarget n) = true) ∨
        (∃ n, (s.duty n).stale = true ∧ s.online (s.dutyTarget n) = true) → s.arbitrate = s) ∧
    (s.busState = .excursion → idle → s.arbitrate = s.startBroadcast .quiet) ∧
    (s.busState = .waking → s.wakeWaiting = false → s.arbitrate = s.startBroadcast .wake) ∧
    (s.busState = .waking → s.wakeWaiting = true → s.arbitrate = s) ∧
    (s.busState = .quiet → s.arbitrate = s)

/-- A granted duty (R37) leaves the queue and becomes RUNNING at list position 1. At its first target check, a target
that is ONLINE lets its first transaction's frame start: a WRITE or a READ by KIND (R39 to R41), or a SYNC in place of a
WRITE while sync-needed is set (R145). A target that is not ONLINE fails the run at position 1 with TARGET_DOWN and no
frame (R38). A READ's bytes go to the run's own record (R40, R41), and the frame of the record at any position is
made alike. Model's choice: the check is an event of its own behind the decision (log entry 22). -/
def Obligations.GrantedDutyStartsItsRun : Prop :=
  ∀ (s : State) (n : Fin 32),
    let i := (s.duty n).listFirst.toNat
    let needsSync := (s.target (s.dutyTarget n)).inSync = false
    let t := s.grantDuty n
    t = { s with
      duties := t.duties, dueQueue := s.dueQueue.filter (fun k => k != n), grant := some (.duty n 1)
      engine := .granted } ∧
    (∀ m, t.duty m = if m = n then { s.duty n with state := .running } else s.duty m) ∧
    (s.online (s.dutyTarget n) = false → t.firstCheck = t.runFailed n .targetDown 1) ∧
    (s.online (s.dutyTarget n) = true → ∃ a : Attempt,
      t.firstCheck = { t with engine := .attempt a, busDivInForce := s.busDiv } ∧
      a.count = 1 ∧ a.frame.target = s.dutyTarget n ∧
      (s.transactionKind i = .write → needsSync → a.frame.kind = .sync) ∧
      (s.transactionKind i = .write → ¬needsSync →
        a.frame.kind = .write ∧ a.sent = memReadList s.mem (0x0904 + 8 * i) a.frame.length) ∧
      (s.transactionKind i = .readCapture ∨ s.transactionKind i = .readCompare → a.frame.kind = .read) ∧
      (a.frame.kind = .read → a.frame.path = .record i) ∧
      (a.frame.kind ≠ .sync → a.frame.offset = s.memByte (0x0901 + 8 * i) ∧
        a.frame.length = (s.memByte (0x0902 + 8 * i)).toNat)) ∧
    ∀ (k : Fin 16) (j : Nat),
      let f := s.transactionFrame k j
      (s.transactionKind j = .write → f.kind = .write ∧
        s.pathBytes f = memReadList s.mem (0x0904 + 8 * j) f.length) ∧
      (s.transactionKind j = .readCapture ∨ s.transactionKind j = .readCompare → f.kind = .read) ∧
      f.path = .record j ∧ f.target = k ∧ f.offset = s.memByte (0x0901 + 8 * j) ∧
      f.length = (s.memByte (0x0902 + 8 * j)).toNat

/-- A granted channel (R87, R89, R124) becomes BUSY and is named by the pointer, and the host wait count rises while a
request waits; the unit ends with MEMORY_RANGE when its bytes do not lie in the data area. A granted request (R107)
goes into flight, FORCE_SYNC marking its target. At the first target check the data frame starts (R91, R109) where the
target is ONLINE; else the unit ends with TARGET_DOWN (R90), or the request with TARGET_DOWN, BYTES 0 and ATTEMPTS 0
(R108). Model's choice: the check is an event of its own behind the decision (log entry 22). -/
def Obligations.GrantedChannelAndRequestStart : Prop :=
  ∀ s : State,
    (∀ c : Fin 16,
      let d := s.currentDescriptor c
      let a := (s.channel c).currentAddress.toNat
      let u := { s.setChannel c { s.channel c with state := .busy } with
        grant := some (.channel c false), channelPointer := c
        hostWait := if s.requests = [] then s.hostWait else s.hostWait + 1 }
      let t := s.grantChannel c
      (a < 0x0D00 ∨ 0x2000 < a + d.unitSize.toNat → t = u.unitEnd c .memoryRange) ∧
      (0x0D00 ≤ a → a + d.unitSize.toNat ≤ 0x2000 → t = { u with engine := .granted } ∧
        (s.online d.target = false → t.firstCheck = t.unitEnd c .targetDown) ∧
        (s.online d.target = true → ∃ e : Attempt,
          t.firstCheck = { t with engine := .attempt e, busDivInForce := s.busDiv } ∧
          e.count = 1 ∧ e.frame.target = d.target ∧
          (d.isWrite = false → e.frame.kind = .read ∧ e.frame.path = .area a) ∧
          (d.isWrite = true → (s.target d.target).inSync = true →
            e.frame.kind = .write ∧ e.sent = memReadList s.mem a d.unitSize.toNat) ∧
          (d.isWrite = true → (s.target d.target).inSync = false → e.frame.kind = .sync) ∧
          (e.frame.kind ≠ .sync →
            e.frame.offset = (s.channel c).currentOffset ∧ e.frame.length = d.unitSize.toNat)))) ∧
    (∀ r rest, s.requests = r :: rest →
      let mark := if r.forceSync then { s.target r.target with inSync := false } else s.target r.target
      let t := s.grantHost r
      t = { s with
        targets := t.targets, requests := rest, hostWait := 0, inFlight := some r, grant := some .host
        engine := .granted } ∧
      (∀ k, t.target k = if k = r.target then mark else s.target k) ∧
      (s.online r.target = false → t.firstCheck = { t with
        inFlight := none, grant := none, engine := .gap
        completions := s.completions ++ [(⟨r.tag, .targetDown, 0, 0⟩ : Completion)] }) ∧
      (s.online r.target = true → ∃ e : Attempt,
        t.firstCheck = { t with engine := .attempt e, busDivInForce := s.busDiv } ∧
        e.count = 1 ∧ e.frame.target = r.target ∧
        (r.isWrite = false → e.frame = ⟨.read, r.target, r.offset, r.length, .area r.address⟩) ∧
        (r.isWrite = true → mark.inSync = true →
          e.frame = ⟨.write, r.target, r.offset, r.length, .area r.address⟩ ∧
          e.sent = memReadList s.mem r.address r.length) ∧
        (r.isWrite = true → mark.inSync = false → e.frame.kind = .sync)))

/-! ## Frames -/

/-- The target check before each frame: the first one of granted work, and at INTER_FRAME_GAP_END (R142) the next one.
ONLINE: the frame starts as attempt 1, with a SYNC in place of a WRITE where one is needed (R38, R90, R108, R145). Not
ONLINE: the run fails with TARGET_DOWN at this position, the unit ends with TARGET_DOWN, or the request completes with
TARGET_DOWN, without a frame. Model's choice (log entry 22): the first check comes ahead of the rows that need its
frame on the bus, and of DISARM_DUTY (R120). -/
def Obligations.NextFrameFollowsTheTargetCheck : Prop :=
  ∀ s : State,
    let goes := fun u : State => (s.engine = .granted → s.firstCheck = u) ∧
      (∀ k, s.engine = .interGap k → s.softResetPending = false → exec .interFrameGapEnd s = .next u.settle)
    let starts := fun f : Frame => goes { s with
      engine := .attempt (s.newAttempt (s.frameFor f) 1), busDivInForce := s.busDiv }
    (∀ n position, s.grant = some (.duty n position) → (s.duty n).disarmPending = false →
      (s.online (s.dutyTarget n) = true →
        starts (s.transactionFrame (s.dutyTarget n) ((s.duty n).listFirst.toNat + position - 1))) ∧
      (s.online (s.dutyTarget n) = false → goes (s.runFailed n .targetDown position))) ∧
    (∀ c acknowledge, s.grant = some (.channel c acknowledge) →
      (s.online (s.currentDescriptor c).target = true →
        starts (if acknowledge then s.acknowledgeFrame c else s.unitFrame c)) ∧
      (s.online (s.currentDescriptor c).target = false → goes (s.unitEnd c .targetDown))) ∧
    (∀ r : Request, s.grant = some .host → s.inFlight = some r →
      (s.online r.target = true → starts r.frame) ∧
      (s.online r.target = false → goes { s with
        completions := s.completions ++ [(⟨r.tag, .targetDown, 0, 0⟩ : Completion)], inFlight := none, grant := none
        engine := .gap })) ∧
    (s.engine ≠ .granted → s.firstCheck = s) ∧
    (s.engine = .granted →
      (∀ status data, exec (.attemptEnd status data) s = exec (.attemptEnd status data) s.firstCheck) ∧
      exec .readyTimeout s = exec .readyTimeout s.firstCheck ∧
      (s.phase = .running → s.unit = .ready → exec .disarmDuty s = exec .disarmDuty s.firstCheck))

/-- The header bytes of every frame and broadcast (R71): kind code and target, offset, length - 1 with SEQ, which is the
target's S in a WRITE, 0 in a READ and the complement of S in a SYNC (R135). The bus carries the header of the engine's
attempt, with the S of the target it addresses as it stands (R132), or of its broadcast (R147), SSEL# low, and of
nothing else. An attempt's bus cycles, each with what the part drives. A WRITE: header, SETTLE cycles, its data slots with PACE
cycles between two, turnaround, status (R133). A READ: header, turnaround, SETTLE cycles, data slots, status (R134). A
SYNC: header, turnaround, status (R135). A slot is one cycle for a FIXED target (R138); for a HANDSHAKE target the cycles
in which SWAIT# is low from the slot's first (`low`) are wait cycles ahead of the one that moves its byte (R139). The
part drives the header, and a WRITE's byte through every cycle of its slot, each in odd parity; it has released SD
and SPAR in every other cycle (R129). A slot with more than READY_LIMIT waits ends the attempt: READY_LIMIT wait cycles
and one more, no turnaround and no status (R139, R140). The lengths are those of R137, with W 0 for a FIXED target. The
status byte is decoded by value and parity, PARITY also for a READ with a byte of even parity (R72, R141), and a READ's
bytes are handed over only at OK, each to its place (R134, R40, R66). -/
def Obligations.AttemptsRunTheirPhasesAndAreDecoded : Prop :=
  (∀ (f : Frame) (seq : Bool), f.length ≤ 16 →
    let code := match f.kind with | .write => 1 | .read => 2 | .sync => 3
    let bit := match f.kind with | .write => seq | .read => false | .sync => !seq
    f.header seq = [BitVec.ofNat 8 (16 * code + f.target.val), f.offset,
      BitVec.ofNat 8 (f.length - 1 + if bit then 16 else 0)]) ∧
  (∀ (t : Fin 16) (seq : Bool),
    (syncFrame t).header seq = [BitVec.ofNat 8 (0x30 + t.val), 0, if seq then 0 else 0x10]) ∧
  (Broadcast.quiet.header = [0x80, 0, 0] ∧ Broadcast.wake.header = [0x90, 0, 0] ∧
    Broadcast.reset.header = [0xA0, 0, 0]) ∧
  (∀ (s : State) (low : Nat → Nat),
    (∀ a, s.engine = .attempt a →
      let header := a.frame.header (s.target a.frame.target).seq
      s.sselLow = true ∧ s.headerOnBus = header.map driven ∧ s.cyclesOnBus low = a.busCycles header low) ∧
    (∀ b, s.engine = .broadcast b → s.sselLow = true ∧ s.headerOnBus = b.header.map driven ∧
      s.cyclesOnBus low = b.header.map (fun x => ⟨.header, some (driven x)⟩)) ∧
    ((∀ a, s.engine ≠ .attempt a) → (∀ b, s.engine ≠ .broadcast b) →
      s.sselLow = false ∧ s.headerOnBus = [] ∧ s.cyclesOnBus low = [])) ∧
  (∀ (a : Attempt) (header : List Byte) (low : Nat → Nat), header.length = 3 →
    let run := a.run header low
    let idle := fun (p : Phase) (n : Nat) => List.replicate n (⟨p, none⟩ : BusCycle)
    let drive := fun k => if a.frame.kind = .write then a.sent[k]?.map driven else none
    let w := fun k => if a.profile = 1 then low k else 0
    let pace := fun k => idle .pace (if k = 0 then 0 else a.pace.toNat)
    let slots := fun n => (List.range n).flatMap (fun k =>
      pace k ++ List.replicate (w k) ⟨.wait, drive k⟩ ++ [⟨.data, drive k⟩])
    let head := header.map (fun b => (⟨.header, some (driven b)⟩ : BusCycle))
    let opening := head ++ idle .turnaround (if a.frame.kind = .read then 1 else 0) ++ idle .settle a.settleCycles.toNat
    let waited := fun n => ((List.range n).map w).sum
    (a.frame.kind = .write → run = opening ++ slots a.frame.length ++ idle .turnaround 1 ++ idle .status 1) ∧
    (a.frame.kind = .read → run = opening ++ slots a.frame.length ++ idle .status 1) ∧
    (a.frame.kind = .sync → run = head ++ idle .turnaround 1 ++ idle .status 1 ∧ run.length = 5) ∧
    (a.frame.kind ≠ .sync → run.length =
      5 + a.settleCycles.toNat + a.frame.length + a.pace.toNat * (a.frame.length - 1) + waited a.frame.length) ∧
    a.cycles low = run.length ∧
    (a.profile ≠ 1 → ∀ n, waited n = 0) ∧
    (a.frame.kind = .write → a.sent.length = a.frame.length →
      (run.filter (fun x => x.phase == .data)).map BusCycle.part = a.sent.map (fun b => some (driven b))) ∧
    (∀ x : BusCycle, x.readsWait a.profile = true ↔ a.profile = 1 ∧ (x.phase = .wait ∨ x.phase = .data)) ∧
    (∀ slot, a.frame.kind ≠ .sync → a.profile = 1 →
      let cut := a.runToTimeout header low slot
      cut = opening ++ slots slot ++ pace slot ++ List.replicate (a.readyLimit.toNat + 1) ⟨.wait, drive slot⟩ ∧
      cut.length = 3 + (if a.frame.kind = .read then 1 else 0) + a.settleCycles.toNat + slot + a.pace.toNat * slot
        + waited slot + a.readyLimit.toNat + 1 ∧
      a.timeoutCycles low slot = cut.length ∧
      (slot < a.frame.length → a.readyLimit.toNat < low slot → (∀ k, k < slot → low k ≤ a.readyLimit.toNat) →
        a.busCycles header low = cut)) ∧
    (a.frame.kind = .sync ∨ a.profile ≠ 1 ∨ (∀ k, k < a.frame.length → low k ≤ a.readyLimit.toNat) →
      a.busCycles header low = run)) ∧
  (∀ (limit n : Nat) (rest : List Bool),
    slotWaits limit (List.replicate n false ++ true :: rest) = if n ≤ limit then some n else none) ∧
  (∀ (f : Frame) (x : Sample) (data : List Sample),
    let o := attemptOutcome f x data
    let clean := f.kind = .read → ∀ y ∈ (data ++ List.replicate f.length idleSample).take f.length, sampleOdd y = true
    (¬clean → o = .parity) ∧
    (clean → sampleOdd x = false → o = .parity) ∧
    (clean → sampleOdd x = true →
      (x.sd = 0x5A → o = .ok) ∧ (x.sd = 0x3C → o = .nak) ∧ (x.sd = 0x66 → o = .parity) ∧
      (x.sd ≠ 0x5A → x.sd ≠ 0x3C → x.sd ≠ 0x66 → o = .noResponse)) ∧
    (∀ b : Byte, sampleOdd (driven b) = true ∧ (driven b).sd = b) ∧ decodeStatus idleSample = .noResponse) ∧
  ∀ (s : State) (f : Frame) (o : FrameOutcome) (data : List Sample),
    let got := ((data ++ List.replicate f.length idleSample).take f.length).map (fun y => y.sd)
    (f.kind ≠ .read ∨ o ≠ .ok → s.storeReceived f o data = s) ∧
    (f.kind = .read → o = .ok →
      (∀ i, f.path = .record i →
        (s.transactionKind i = .readCapture →
          s.storeReceived f o data = { s with mem := memWriteList s.mem (0x0904 + 8 * i) got }) ∧
        (s.transactionKind i ≠ .readCapture → s.storeReceived f o data = s)) ∧
      (∀ b, f.path = .area b → s.storeReceived f o data = { s with mem := memWriteList s.mem b got }))

/-- Retries (R141, R140). An attempt that ends NO_RESPONSE, PARITY or READY_TIMEOUT with attempts left is followed by the
retry gap, and nothing is reported; a READY_TIMEOUT of the last attempt ends the frame; RETRY_GAP_END starts the next
attempt of the same frame. Every attempt, the first and each later one, reads PROFILE, SETTLE, PACE, READY_LIMIT and
RETRY_LIMIT from the target's record and its data bytes afresh as it starts (R131, R65). A READY_TIMEOUT comes only in a WRITE or READ
attempt to a HANDSHAKE target (R136, R139); in another attempt the row leaves the state (model's choice, log entry 3). -/
def Obligations.RetriedOutcomesStartTheNextAttempt : Prop :=
  (∀ (s : State) (f : Frame) (count : Nat),
    let a := s.newAttempt f count
    let t := s.target f.target
    a.frame = f ∧ a.count = count ∧ a.profile = t.profile ∧ a.settleCycles = t.settleCycles ∧ a.pace = t.pace ∧
      a.readyLimit = t.readyLimit ∧ a.retryLimit = t.retryLimit ∧ a.sent = s.pathBytes f ∧ a.driven = 0) ∧
  ∀ (s : State) (a : Attempt),
    (s.engine = .attempt a → a.count ≤ a.retryLimit.toNat →
      (∀ status data, (attemptOutcome a.frame status data).retried = true →
        exec (.attemptEnd status data) s = .next { s with engine := .retryGap a }.settle) ∧
      (a.frame.kind ≠ .sync → a.profile = 1 →
        exec .readyTimeout s = .next { s with engine := .retryGap a }.settle)) ∧
    (s.engine = .attempt a → a.retryLimit.toNat < a.count → a.frame.kind ≠ .sync → a.profile = 1 →
      exec .readyTimeout s = .next (s.frameOutcome a .readyTimeout []).settle) ∧
    (s.engine = .attempt a → a.frame.kind = .sync ∨ a.profile ≠ 1 → exec .readyTimeout s = .next s) ∧
    (s.engine = .retryGap a →
      exec .retryGapEnd s = .next { s with engine := .attempt (s.newAttempt a.frame (a.count + 1)) })

/-- The frame's outcome at the target table, however the last attempt ends, ready timeouts among it: the counts (R152), S
and sync-needed (R144), quarantine (R153), and the completion of a deferred TARGET_OFFLINE (R157). No other field of the
record changes, and no other target record. -/
def Obligations.TargetTableCountsTheOutcome : Prop :=
  ∀ (s : State) (a : Attempt) (c : Instr) (o : FrameOutcome) (data : List Sample), s.engine = .attempt a →
    a.endsBy c o data → a.last o →
    let r := s.target a.frame.target
    let failed := o = .noResponse ∨ o = .readyTimeout ∨ o = .parity
    ∃ t, exec c s = .next t ∧ (∀ k, k ≠ a.frame.target → t.target k = s.target k) ∧
      let q := t.target a.frame.target
      q = { r with
        consecFails := q.consecFails, lastFailure := q.lastFailure, framesCompleted := q.framesCompleted, seq := q.seq
        inSync := q.inSync, noticeQuarantined := q.noticeQuarantined, state := q.state
        offlinePending := q.offlinePending } ∧
      (failed → q.consecFails = r.consecFails + 1 ∧ q.lastFailure = o.condition ∧
        q.framesCompleted = r.framesCompleted) ∧
      (¬failed → q.consecFails = 0 ∧ q.lastFailure = r.lastFailure ∧ q.framesCompleted = r.framesCompleted + 1) ∧
      (a.frame.kind = .write → failed → q.seq = r.seq ∧ q.inSync = false) ∧
      (a.frame.kind = .write → ¬failed → q.seq = !r.seq ∧ q.inSync = r.inSync) ∧
      (a.frame.kind = .sync → q.seq = r.seq ∧ q.inSync = (r.inSync || decide (o = .ok))) ∧
      (a.frame.kind = .read → q.seq = r.seq ∧ q.inSync = r.inSync) ∧
      (failed → r.consecFails + 1 = r.quarantineThreshold → q.noticeQuarantined = true ∧
        (r.offlinePending = false → q.state = .quarantined)) ∧
      (¬(failed ∧ r.consecFails + 1 = r.quarantineThreshold) → q.noticeQuarantined = r.noticeQuarantined ∧
        (r.offlinePending = false → q.state = r.state)) ∧
      (r.offlinePending = false → q.offlinePending = false) ∧
      (r.offlinePending = true → q.state = .offline ∧ q.offlinePending = false ∧ t.unit = .ready ∧ t.cmdResult = 0 ∧
        t.commandDone = true)

/-- The last transaction of a run completes (R45): the account of a successful run, the duty's next state by its
balance, the queue, and the end of the grant (R48); the bytes of a READ_CAPTURE are stored (R40), and a READ_COMPARE
passes where every enabled byte equals its DATA byte (R41). The target table counts the frame (R152). -/
def Obligations.SuccessfulRunPaysOne : Prop :=
  ∀ (s : State) (a : Attempt) (n : Fin 32) (position : Nat) (status : Sample) (data : List Sample),
    s.engine = .attempt a → s.grant = some (.duty n position) → s.softResetPending = false →
    (s.duty n).disarmPending = false → (s.duty n).listLength.toNat ≤ position →
    attemptOutcome a.frame status data = .ok →
    let i := (s.duty n).listFirst.toNat + position - 1
    let got := ((data ++ List.replicate a.frame.length idleSample).take a.frame.length).map (fun x => x.sd)
    (a.frame.kind = .write ∧ s.transactionKind i = .write) ∨
      (a.frame.kind = .read ∧ a.frame.path = .record i ∧ a.frame.length ≤ 4 ∧
        (s.transactionKind i = .readCapture ∨ s.transactionKind i = .readCompare ∧
          ∀ k, k < a.frame.length → s.compareEnable i k = true → got.getD k 0xFF = s.memByte (0x0904 + 8 * i + k))) →
    let d := s.duty n
    let b := if d.balance < (d.pullinLimit.toNat : Int) then d.balance + 1 else d.balance
    let e := { d with
      balance := b, completedRuns := d.completedRuns + 1, consecFails := 0, stale := false
      noticeRunDone := d.noticeRunDone || d.notifyOnRun != 0, state := if b < 0 then .due else .armed }
    let u := (s.countOutcome a.frame.target a.frame.kind .ok).setDuty n e
    exec (.attemptEnd status data) s = .next (({ u with
      grant := none, engine := .gap
      dueQueue := if b < 0 then placeBySlack u.slackOf n s.dueQueue else s.dueQueue
      mem := if s.transactionKind i = TransactionKind.readCapture then memWriteList s.mem (0x0904 + 8 * i) got else s.mem
      }).completeOffline a.frame.target).settle

/-- A run fails (R47, R20, R21): at every outcome other than OK of its frame's last attempt (R42), NAK, NO_RESPONSE,
PARITY and READY_TIMEOUT, and at a READ_COMPARE of which an enabled byte differs (MISMATCH, R41); the failed target
check is NextFrameFollowsTheTargetCheck's (TARGET_DOWN, R38). BALANCE stands; the duty faults at its threshold, else it
is held and goes to DUE or ARMED by its balance. -/
def Obligations.FailedRunHoldsOrFaults : Prop :=
  ∀ (s : State) (n : Fin 32) (cause : Condition) (position : Nat),
    let d := s.duty n
    let counted := cause ≠ .targetDown
    let e := { d with
      lastFailure := cause, failPosition := BitVec.ofNat 8 position, noticeRunFailed := true
      consecFails := if counted then d.consecFails + 1 else d.consecFails }
    let u := s.runFailed n cause position
    (∀ (a : Attempt) (c : Instr) (o : FrameOutcome) (data : List Sample), s.engine = .attempt a →
      s.grant = some (.duty n position) → s.softResetPending = false → d.disarmPending = false →
      a.endsBy c o data → a.last o →
      let fails := fun x => exec c s = .next ((((s.countOutcome a.frame.target a.frame.kind o).runFailed n x
        position).completeOffline a.frame.target).settle)
      (o ≠ .ok → fails o.condition) ∧
      (o = .ok → a.frame.kind = .read → ∀ i k, i = d.listFirst.toNat + position - 1 → a.frame.path = .record i →
        s.transactionKind i = .readCompare → k < a.frame.length → s.compareEnable i k = true →
        (receivedBytes a.frame data).getD k 0xFF ≠ s.memByte (0x0904 + 8 * i + k) → fails .mismatch)) ∧
    u = { s with duties := u.duties, dueQueue := u.dueQueue, grant := none, engine := .gap } ∧
    (∀ m, m ≠ n → u.duty m = s.duty m) ∧
    (counted → d.consecFails + 1 = d.faultThreshold → u.dueQueue = s.dueQueue ∧
      u.duty n = { e with state := .faulted, held := false, stale := false, noticeFault := true }) ∧
    (¬(counted ∧ d.consecFails + 1 = d.faultThreshold) →
      (d.balance < 0 → u.duty n = { e with held := true, state := .due } ∧
        u.dueQueue = placeBySlack u.slackOf n s.dueQueue) ∧
      (0 ≤ d.balance → u.duty n = { e with held := true, state := .armed } ∧ u.dueQueue = s.dueQueue))

/-- A transaction that completes before the last (R43) moves the run to the next position, after the idle gap and
PAUSE_AFTER: a WRITE (R39), a READ_CAPTURE, whose bytes are stored (R40), a READ_COMPARE of which every enabled byte
equals its DATA byte (R41); a SYNC that ends OK is followed by its WRITE at the same position (R145). No account
changes. -/
def Obligations.RunGoesOnAfterATransaction : Prop :=
  ∀ (s : State) (a : Attempt) (n : Fin 32) (position : Nat) (status : Sample) (data : List Sample),
    s.engine = .attempt a → s.grant = some (.duty n position) → s.softResetPending = false →
    (s.duty n).disarmPending = false → attemptOutcome a.frame status data = .ok →
    let i := (s.duty n).listFirst.toNat + position - 1
    let u := s.countOutcome a.frame.target a.frame.kind .ok
    let goesOn := fun m => position < (s.duty n).listLength.toNat →
      exec (.attemptEnd status data) s = .next (({ u with
        grant := some (.duty n (position + 1)), mem := m
        engine := .interGap (1 + (s.memByte (0x0903 + 8 * i)).toNat) }).completeOffline a.frame.target).settle
    (a.frame.kind = .sync → exec (.attemptEnd status data) s =
      .next (({ u with engine := .interGap 1 }).completeOffline a.frame.target).settle) ∧
    (a.frame.kind = .write → s.transactionKind i = .write → goesOn s.mem) ∧
    (a.frame.kind = .read → a.frame.path = .record i →
      (s.transactionKind i = .readCapture → a.frame.length ≤ 4 →
        goesOn (memWriteList s.mem (0x0904 + 8 * i) (receivedBytes a.frame data))) ∧
      (s.transactionKind i = .readCompare → (∀ k, k < a.frame.length → s.compareEnable i k = true →
          (receivedBytes a.frame data).getD k 0xFF = s.memByte (0x0904 + 8 * i + k)) → goesOn s.mem))

/-- The end of a unit (R88 with R89): on success the counts, the steps and, at a count of 0, the end action (R93), whose
STOP, CHAIN and RELOAD are applied whether or not a stop is pending or a cause recorded (R94); on failure HALT_CAUSE
takes the cause where it holds none (R95). Then the channel is IDLE where a stop was pending, the command finishing with
OK (R96), else HALTED where a cause is recorded (R95), else DONE by a STOP, else WAITING. The grant ends with the
unit. -/
def Obligations.UnitEndFollowsItsSteps : Prop :=
  ∀ (s : State) (c : Fin 16) (cause : Condition),
    let r := s.channel c
    let d := s.currentDescriptor c
    let counted := { r with
      currentOffset := if d.offsetIncrement then r.currentOffset + d.unitSize else r.currentOffset
      currentAddress := if d.memoryIncrement then r.currentAddress + d.unitSize.setWidth 16 else r.currentAddress
      pending := r.pending - 1, remainingCount := r.remainingCount - 1, unitsDone := r.unitsDone + 1 }
    let next := fun (q : ChannelRec) (stops : Bool) =>
      if r.stopPending = true then
        { q with
          state := .idle, pending := 0, stopPending := false
          noticeHalt := q.noticeHalt || decide (q.haltCause ≠ .none) }
      else if q.haltCause ≠ .none then { q with state := .halted, pending := 0, stopPending := false, noticeHalt := true }
      else if stops = true then { q with state := .done, pending := 0 }
      else { q with state := .waiting }
    let loads := fun slot : Byte =>
      let e := s.descriptor slot.toNat
      ((e.valid = true → (s.unitEnd c .none).channel c = next { counted with
        currentSlot := slot, remainingCount := e.count, currentOffset := e.startOffset
        currentAddress := e.memoryStart, noticeChain := r.noticeChain || d.notify } false) ∧
      (e.valid = false → (s.unitEnd c .none).channel c = next { counted with
        currentSlot := slot, haltCause := if r.haltCause = .none then .badDescriptor else r.haltCause } false))
    let u := s.unitEnd c cause
    u.grant = none ∧ u.engine = .gap ∧ (∀ k, k ≠ c → u.channel k = s.channel k) ∧
    u = { s with
      channels := u.channels, grant := none, engine := .gap, unit := u.unit, cmdResult := u.cmdResult
      commandDone := u.commandDone } ∧
    (r.stopPending = true → u.unit = .ready ∧ u.cmdResult = 0 ∧ u.commandDone = true) ∧
    (r.stopPending = false → u.unit = s.unit ∧ u.cmdResult = s.cmdResult ∧ u.commandDone = s.commandDone) ∧
    (cause ≠ .none →
      u.channel c = next { r with haltCause := if r.haltCause = .none then cause else r.haltCause } false) ∧
    (r.pending ≠ 0 →
      (r.remainingCount ≠ 1 → (s.unitEnd c .none).channel c = next counted false) ∧
      (r.remainingCount = 1 → d.endAction = 0 →
        (s.unitEnd c .none).channel c = next { counted with noticeEnd := r.noticeEnd || d.notify } true) ∧
      (r.remainingCount = 1 → d.endAction = 1 → loads d.nextSlot) ∧
      (r.remainingCount = 1 → d.endAction = 2 → loads r.currentSlot))

/-- The frames of a unit (R91, R92): a data frame that ends OK is followed by the acknowledge frame where ACK_ENABLE is
yes, else the unit ends with success; the acknowledge frame, a WRITE of the one byte ACK_VALUE to ACK_OFFSET, ends it
with success at OK; a SYNC that ends OK is followed by the frame it stood for (R145); every other outcome of a last
attempt, NAK, NO_RESPONSE, PARITY and READY_TIMEOUT, ends the unit as failure. -/
def Obligations.UnitFramesFollowTheirOutcome : Prop :=
  ∀ (s : State) (c : Fin 16),
    let d := s.currentDescriptor c
    s.acknowledgeFrame c = ⟨.write, d.target, d.ackOffset, 1, .value d.ackValue⟩ ∧
    s.pathBytes (s.acknowledgeFrame c) = [d.ackValue] ∧
    ∀ (a : Attempt) (acknowledge : Bool) (i : Instr) (o : FrameOutcome) (data : List Sample),
      s.engine = .attempt a → s.grant = some (.channel c acknowledge) → s.softResetPending = false →
      a.endsBy i o data → a.last o →
      let t := a.frame.target
      let u := s.countOutcome t a.frame.kind o
      let goesOn := fun v : State => exec i s = .next ((v.completeOffline t).settle)
      (o ≠ .ok → goesOn (u.unitEnd c o.condition)) ∧
      (o = .ok → a.frame.kind = .sync → goesOn { u with engine := .interGap 1 }) ∧
      (o = .ok → a.frame.kind = .write →
        (acknowledge = false → d.ackEnable = true →
          goesOn { u with grant := some (.channel c true), engine := .interGap 1 }) ∧
        (acknowledge = true ∨ d.ackEnable = false → goesOn (u.unitEnd c .none))) ∧
      (o = .ok → a.frame.kind = .read → acknowledge = false →
        ∀ b, a.frame.path = .area b → Config.dataBase ≤ b → (s.channel c).currentSlot.toNat ≤ 47 →
          let w := u.writeMem b (receivedBytes a.frame data)
          (d.ackEnable = true → goesOn { w with grant := some (.channel c true), engine := .interGap 1 }) ∧
          (d.ackEnable = false → goesOn (w.unitEnd c .none)))

/-- The in-flight request ends at the outcome of its data frame, or of a SYNC that failed, ready timeouts among them
(R109): one completion record with its TAG, STATUS, BYTES and ATTEMPTS at the tail, the request out of flight and the
grant ended; a READ that ended OK has put its bytes into the data area, and no other outcome changes memory. A SYNC that
ends OK is followed by the data frame, behind the idle gap (R109, R145). Model's choice: at an outcome that quarantines
the target, this record stands ahead of the TARGET_DOWN records of the heads disposed of there (log entry 23). -/
def Obligations.RequestEndsInOneCompletion : Prop :=
  ∀ (s : State) (a : Attempt) (r : Request) (c : Instr) (o : FrameOutcome) (data : List Sample),
    s.engine = .attempt a → s.grant = some .host → s.inFlight = some r → s.softResetPending = false →
    a.endsBy c o data → a.last o →
    let v := s.countOutcome a.frame.target a.frame.kind o
    (o = .ok ∧ a.frame.kind = .sync →
      exec c s = .next ({ v with engine := .interGap 1 }.completeOffline a.frame.target).settle) ∧
    (¬(o = .ok ∧ a.frame.kind = .sync) →
      ∃ u : State, exec c s = .next u.settle ∧ u.slotsFree = s.slotsFree ∧
        u = ({ v with
          inFlight := none, grant := none, engine := .gap, mem := u.mem
          completions := s.completions ++ [(⟨r.tag, o.condition,
            if o = FrameOutcome.ok then BitVec.ofNat 8 r.length else 0, BitVec.ofNat 8 a.count⟩ : Completion)]
          }).completeOffline a.frame.target ∧
        (∀ b, a.frame.kind = .read → o = .ok → a.frame.path = .area b →
          u.mem = memWriteList s.mem b (receivedBytes a.frame data)) ∧
        (a.frame.kind ≠ .read ∨ o ≠ .ok → u.mem = s.mem))

/-! ## Quiet operation -/

/-- The ends of the broadcasts and of the wait (R166, R168, R173): QUIET with BUS_STATE, or WAKING with stale marking
behind a QUIET_EXIT; WAKE_US latched and the wait begun; and at the wait's end ACTIVE with BUS_STATE, or EXCURSION.
WAKE_WAIT_END stands for the mark that ends the wait: the marks up to it pass first, and count (model's choice, log
entry 5); each row leaves the state where the part does not raise it (log entry 3). -/
def Obligations.QuietControllerActsAtEachEnd : Prop :=
  ∀ s : State,
    (s.engine = .broadcast .quiet → s.purpose ≠ .exit → exec .quietBroadcastEnd s =
      .next { s with engine := .gap, busState := .quiet, busStateCause := true }.settle) ∧
    (s.engine = .broadcast .quiet → s.purpose = .exit → exec .quietBroadcastEnd s =
      .next { ({ s with engine := .gap }).markStale with busState := .waking }.settle) ∧
    (s.engine ≠ .broadcast .quiet → exec .quietBroadcastEnd s = .next s) ∧
    (s.engine = .broadcast .wake → exec .wakeBroadcastEnd s = .next { s with
      engine := .gap, wakeLatched := s.wakeUs, wakeTimer := 0, wakeWaiting := true }) ∧
    (s.engine ≠ .broadcast .wake → exec .wakeBroadcastEnd s = .next s) ∧
    (s.wakeWaiting = false → exec .wakeWaitEnd s = .next s) ∧
    (s.wakeWaiting = true →
      let left := s.wakeLatched.toNat - s.wakeTimer
      let beyond := s.tickCount + left - s.periodInForce.toNat
      ∃ u : State, exec .wakeWaitEnd s = .next u.settle ∧
        (s.purpose = .excursion → u.busState = .excursion ∧ u.busStateCause = s.busStateCause) ∧
        (s.purpose ≠ .excursion → u.busState = .active ∧ u.busStateCause = true) ∧
        (left = 0 → u.prescaler = s.prescaler ∧ u.prescalerDiv = s.prescalerDiv) ∧
        (0 < left → u.prescaler = 0 ∧ u.prescalerDiv = s.clockMhz) ∧
        (left = 0 ∨ s.tickCount + left < s.periodInForce.toNat →
          u.tickCount = s.tickCount + left ∧ u.ticksDue = s.ticksDue ∧ u.periodInForce = s.periodInForce) ∧
        (0 < left → s.periodInForce.toNat ≤ s.tickCount + left → beyond < s.tickPeriod.toNat →
          u.tickCount = beyond ∧ u.ticksDue = s.ticksDue + 1 ∧ u.periodInForce = s.tickPeriod) ∧
        u = { s with
          wakeTimer := 0, wakeWaiting := false, purpose := .none, busState := u.busState
          busStateCause := u.busStateCause, prescaler := u.prescaler, prescalerDiv := u.prescalerDiv
          tickCount := u.tickCount, ticksDue := u.ticksDue, periodInForce := u.periodInForce })

/-! ## The other end of the bus -/

/-- A conforming target at the other end of the bus. Over any number of attempts with one sequence bit, each heard or not
and each with its data whole or not, it carries a WRITE out at most once (R143). The headers of R71 as it hears them
(R132, R143, R145): a SYNC of a target whose S is `seq` brings the target's L to the complement of S, and the WRITE that
follows, of any offset and of length 1 to 16, is new and is carried out; sent again it is a duplicate. A QUIET broadcast
takes it into its low-power state, where it hears no frame, a WAKE broadcast out of it, and a RESET broadcast too, which
leaves L open (R147; a free value, log entry 18). -/
def Obligations.WriteIsCarriedOutAtMostOnceAndSyncMakesItNew : Prop :=
  (∀ (d : Device) (seq accepts : Bool) (attempts : List (Bool × Bool)), d.carriedOutOver seq accepts attempts ≤ 1) ∧
  ∀ (d : Device) (seq : Bool) (offset : Byte) (length : Nat) (path : DataPath), 1 ≤ length → length ≤ 16 →
    let write : Frame := { kind := .write, target := d.number, offset := offset, length := length, path := path }
    let heard := d.hear (((syncFrame d.number).header seq).map driven) true true
    let first := heard.device.hear ((write.header seq).map driven) true true
    let broadcast := fun b : Broadcast => d.hear (b.header.map driven) true true
    (d.asleep = false → heard.reply = .ack ∧ heard.device.last = !seq ∧ first.reply = .ack ∧ first.carriedOut = true ∧
      (first.device.hear ((write.header seq).map driven) true true).reply = .ack ∧
      (first.device.hear ((write.header seq).map driven) true true).carriedOut = false) ∧
    (d.asleep = true → d.hear ((write.header seq).map driven) true true = ⟨d, .silent, false⟩) ∧
    broadcast .quiet = ⟨{ d with asleep := true }, .silent, false⟩ ∧
    broadcast .wake = ⟨{ d with asleep := false }, .silent, false⟩ ∧
    ∃ last, broadcast .reset = ⟨{ d with asleep := false, last := last }, .silent, false⟩

/-! ## Invariants of every step -/

/-- The settings stay in their ranges (R3, R4, R130, R163, R187). Host requests, the one in flight and completion records stay
at most eight (R103); the host wait count stays at most 4, and 0 while no request waits (R124); PENDING stays at
most 2, and 0 outside WAITING and BUSY (R76). -/
def Obligations.SettingsAndCountsStayBounded : Prop :=
  ∀ s t : State, step s = .next t →
    (s.settingsInRange → t.settingsInRange) ∧ (s.slotsHeld ≤ 8 → t.slotsHeld ≤ 8) ∧
    (s.hostWaitBounded → t.hostWaitBounded) ∧ (s.pendingBounded → t.pendingBounded)

/-- The due queue stays exact (R30), in slack order (R31) and apart from the duty that runs (R37). -/
def Obligations.DueQueueStaysExactAndOrdered : Prop :=
  ∀ s t : State, s.queueKept → step s = .next t → t.queueKept

/-- Every duty's balance stays what its state allows and within its limits (R2, R9). -/
def Obligations.AccountsStayInBounds : Prop :=
  ∀ s t : State, s.queueKept → s.accountsKept → step s = .next t → t.accountsKept

/-- The bus keeps one owner (R116); no frame is on it in QUIET or WAKING; and no frame on it addresses a target that is
not ONLINE (R131, R150). -/
def Obligations.BusKeepsOneOwnerAndOnlineTargets : Prop :=
  ∀ s t : State, step s = .next t →
    (s.busKept → t.busKept ∧ (t.busState = .quiet ∨ t.busState = .waking → t.frameOnBus = none)) ∧
    (s.framesOnline → t.framesOnline)

/-- What is in use stays what its command validated: every target that is not OFFLINE keeps host fields that pass R155
(R151), every queued or in-flight request a LENGTH of 1 to 16 and its bytes in the data area (R104), every duty in service
a valid record and list (R36), every WAITING or BUSY channel a valid descriptor (R77), the granted work its position or
its unit in range (R43, R89), and the frame on the bus moves bytes in range (R66). So the codes that validation refuses,
a PROFILE above 1 among them, stay out of use. The premises are invariants themselves (DueQueueStaysExactAndOrdered,
BusKeepsOneOwnerAndOnlineTargets). -/
def Obligations.WorkInUseStaysValid : Prop :=
  ∀ s t : State, s.queueKept → s.framesOnline → s.workKept → step s = .next t → t.workKept

/-- Every invariant holds after reset, and after the clear that follows it with any levels on the trigger lines. -/
def Obligations.InvariantsHoldAfterReset : Prop :=
  ∀ lines : Byte, ∀ s ∈ [State.reset, State.reset.cleared lines],
    s.settingsInRange ∧ s.slotsHeld ≤ 8 ∧ s.hostWaitBounded ∧ s.pendingBounded ∧ s.queueKept ∧ s.accountsKept ∧
      s.busKept ∧ s.framesOnline ∧ s.workKept
end

