-- ==== Sys2Proof/Laws/State.lean ====
section
/-!
SUPPORT. The small lemmas of the state's updates: for each update what every field and every accessor reads after it
(one theorem an update, its parts used by simp one by one), and what a record or a latch reads after it was set.
-/

namespace Sys2Proof.Machine

open Sys2Proof

/-! ## Records read after they were set -/

theorem vector_get_set {α : Type} {m : Nat} (v : Vector α m) (i j : Fin m) (x : α) :
    (v.set i x)[j] = if j = i then x else v[j] := by
  by_cases h : j = i
  · subst h; simp
  · have h' : ¬i.val = j.val := fun e => h (Fin.ext e.symm)
    simp [h, h']

@[simp] theorem duty_setDuty (s : State) (n k : Fin 32) (d : DutyRec) :
    (s.setDuty n d).duty k = if k = n then d else s.duty k := vector_get_set ..

@[simp] theorem channel_setChannel (s : State) (c k : Fin 16) (r : ChannelRec) :
    (s.setChannel c r).channel k = if k = c then r else s.channel k := vector_get_set ..

@[simp] theorem target_setTarget (s : State) (t k : Fin 16) (r : TargetRec) :
    (s.setTarget t r).target k = if k = t then r else s.target k := vector_get_set ..

@[simp] theorem target_countOutcome (s : State) (t k : Fin 16) (j : FrameKind) (o : FrameOutcome) :
    (s.countOutcome t j o).target k = if k = t then (s.target t).outcome j o else s.target k := vector_get_set ..

theorem latchIndex_injective {q r : Reg16} (h : latchIndex q = latchIndex r) : q = r := by
  cases q <;> cases r <;> first | rfl | (exact absurd h (by decide))

theorem holdIndex_injective {q w : WReg16} (h : holdIndex q = holdIndex w) : q = w := by
  cases q <;> cases w <;> first | rfl | (exact absurd h (by decide))

@[simp] theorem latch_setLatch (s : State) (r q : Reg16) (b : Option Byte) :
    (s.setLatch r b).latch q = if q = r then b else s.latch q := by
  by_cases h : q = r
  · subst h; simp [State.latch, State.setLatch]
  · have h' : ¬latchIndex q = latchIndex r := fun e => h (latchIndex_injective e)
    exact (vector_get_set s.readLatch (latchIndex r) (latchIndex q) b).trans (by rw [if_neg h', if_neg h]; rfl)

@[simp] theorem hold_setHold (s : State) (w q : WReg16) (b : Option Byte) :
    (s.setHold w b).hold q = if q = w then b else s.hold q := by
  by_cases h : q = w
  · subst h; simp [State.hold, State.setHold]
  · have h' : ¬holdIndex q = holdIndex w := fun e => h (holdIndex_injective e)
    exact (vector_get_set s.writeHold (holdIndex w) (holdIndex q) b).trans (by rw [if_neg h', if_neg h]; rfl)

/-- Two states with the same duty records at every index have the same duty file. -/
theorem duties_ext {s t : State} (h : ∀ n, s.duty n = t.duty n) : s.duties = t.duties :=
  Vector.ext fun i hi => h ⟨i, hi⟩

theorem channels_ext {s t : State} (h : ∀ c, s.channel c = t.channel c) : s.channels = t.channels :=
  Vector.ext fun i hi => h ⟨i, hi⟩

theorem targets_ext {s t : State} (h : ∀ k, s.target k = t.target k) : s.targets = t.targets :=
  Vector.ext fun i hi => h ⟨i, hi⟩

@[simp] theorem setDuty_duty_self (s : State) (n : Fin 32) : s.setDuty n (s.duty n) = s := by
  simp [State.setDuty, State.duty]

@[simp] theorem setChannel_channel_self (s : State) (c : Fin 16) : s.setChannel c (s.channel c) = s := by
  simp [State.setChannel, State.channel]

@[simp] theorem setTarget_target_self (s : State) (t : Fin 16) : s.setTarget t (s.target t) = s := by
  simp [State.setTarget, State.target]

/-! ## Every field and accessor after each update -/

@[simp] theorem setDuty_reads (s : State) (n : Fin 32) (d : DutyRec) :
    (s.setDuty n d).phase = s.phase ∧ (s.setDuty n d).hostData = s.hostData ∧
    (s.setDuty n d).readLatch = s.readLatch ∧ (s.setDuty n d).writeHold = s.writeHold ∧
    (s.setDuty n d).unit = s.unit ∧ (s.setDuty n d).cmdOperand = s.cmdOperand ∧
    (s.setDuty n d).cmdCode = s.cmdCode ∧ (s.setDuty n d).cmdResult = s.cmdResult ∧
    (s.setDuty n d).noticeCause = s.noticeCause ∧ (s.setDuty n d).commandDone = s.commandDone ∧
    (s.setDuty n d).busStateCause = s.busStateCause ∧ (s.setDuty n d).guardCause = s.guardCause ∧
    (s.setDuty n d).collisionCause = s.collisionCause ∧ (s.setDuty n d).readyCause = s.readyCause ∧
    (s.setDuty n d).intEnable = s.intEnable ∧ (s.setDuty n d).tmPtr = s.tmPtr ∧
    (s.setDuty n d).guardAddr = s.guardAddr ∧ (s.setDuty n d).targets = s.targets ∧
    (s.setDuty n d).channels = s.channels ∧ (s.setDuty n d).duties = s.duties.set n d ∧
    (s.setDuty n d).mem = s.mem ∧ (s.setDuty n d).clockMhz = s.clockMhz ∧
    (s.setDuty n d).prescaler = s.prescaler ∧ (s.setDuty n d).prescalerDiv = s.prescalerDiv ∧
    (s.setDuty n d).tickPeriod = s.tickPeriod ∧ (s.setDuty n d).periodInForce = s.periodInForce ∧
    (s.setDuty n d).tickCount = s.tickCount ∧ (s.setDuty n d).ticksDue = s.ticksDue ∧
    (s.setDuty n d).dueQueue = s.dueQueue ∧ (s.setDuty n d).pullin = s.pullin ∧
    (s.setDuty n d).lineEdge = s.lineEdge ∧ (s.setDuty n d).lineLevel = s.lineLevel ∧
    (s.setDuty n d).channelPointer = s.channelPointer ∧ (s.setDuty n d).staging = s.staging ∧
    (s.setDuty n d).requests = s.requests ∧ (s.setDuty n d).inFlight = s.inFlight ∧
    (s.setDuty n d).completions = s.completions ∧ (s.setDuty n d).softEnd = s.softEnd ∧
    (s.setDuty n d).grant = s.grant ∧ (s.setDuty n d).hostWait = s.hostWait ∧
    (s.setDuty n d).engine = s.engine ∧ (s.setDuty n d).busDiv = s.busDiv ∧
    (s.setDuty n d).busDivInForce = s.busDivInForce ∧ (s.setDuty n d).busState = s.busState ∧
    (s.setDuty n d).purpose = s.purpose ∧ (s.setDuty n d).wakeTimer = s.wakeTimer ∧
    (s.setDuty n d).wakeLatched = s.wakeLatched ∧ (s.setDuty n d).wakeWaiting = s.wakeWaiting ∧
    (s.setDuty n d).wakeUs = s.wakeUs ∧ (s.setDuty n d).freeCount = s.freeCount ∧
    (s.setDuty n d).pending = s.pending ∧ (∀ k, (s.setDuty n d).channel k = s.channel k) ∧
    (∀ k, (s.setDuty n d).target k = s.target k) ∧ (∀ x, (s.setDuty n d).memByte x = s.memByte x) ∧
    (∀ k, (s.setDuty n d).online k = s.online k) ∧ (∀ x, (s.setDuty n d).descriptor x = s.descriptor x) ∧
    (∀ k, (s.setDuty n d).currentDescriptor k = s.currentDescriptor k) ∧
    (∀ x, (s.setDuty n d).transactionKind x = s.transactionKind x) ∧ (s.setDuty n d).frameOnBus = s.frameOnBus ∧
    (s.setDuty n d).broadcastOnBus = s.broadcastOnBus ∧ (s.setDuty n d).softResetPending = s.softResetPending ∧
    (∀ q, (s.setDuty n d).latch q = s.latch q) ∧ (∀ q, (s.setDuty n d).hold q = s.hold q) := by
  and_intros <;> first | rfl | (intro; rfl)

@[simp] theorem setChannel_reads (s : State) (c : Fin 16) (r : ChannelRec) :
    (s.setChannel c r).phase = s.phase ∧ (s.setChannel c r).hostData = s.hostData ∧
    (s.setChannel c r).readLatch = s.readLatch ∧ (s.setChannel c r).writeHold = s.writeHold ∧
    (s.setChannel c r).unit = s.unit ∧ (s.setChannel c r).cmdOperand = s.cmdOperand ∧
    (s.setChannel c r).cmdCode = s.cmdCode ∧ (s.setChannel c r).cmdResult = s.cmdResult ∧
    (s.setChannel c r).noticeCause = s.noticeCause ∧ (s.setChannel c r).commandDone = s.commandDone ∧
    (s.setChannel c r).busStateCause = s.busStateCause ∧ (s.setChannel c r).guardCause = s.guardCause ∧
    (s.setChannel c r).collisionCause = s.collisionCause ∧ (s.setChannel c r).readyCause = s.readyCause ∧
    (s.setChannel c r).intEnable = s.intEnable ∧ (s.setChannel c r).tmPtr = s.tmPtr ∧
    (s.setChannel c r).guardAddr = s.guardAddr ∧ (s.setChannel c r).targets = s.targets ∧
    (s.setChannel c r).channels = s.channels.set c r ∧ (s.setChannel c r).duties = s.duties ∧
    (s.setChannel c r).mem = s.mem ∧ (s.setChannel c r).clockMhz = s.clockMhz ∧
    (s.setChannel c r).prescaler = s.prescaler ∧ (s.setChannel c r).prescalerDiv = s.prescalerDiv ∧
    (s.setChannel c r).tickPeriod = s.tickPeriod ∧ (s.setChannel c r).periodInForce = s.periodInForce ∧
    (s.setChannel c r).tickCount = s.tickCount ∧ (s.setChannel c r).ticksDue = s.ticksDue ∧
    (s.setChannel c r).dueQueue = s.dueQueue ∧ (s.setChannel c r).pullin = s.pullin ∧
    (s.setChannel c r).lineEdge = s.lineEdge ∧ (s.setChannel c r).lineLevel = s.lineLevel ∧
    (s.setChannel c r).channelPointer = s.channelPointer ∧ (s.setChannel c r).staging = s.staging ∧
    (s.setChannel c r).requests = s.requests ∧ (s.setChannel c r).inFlight = s.inFlight ∧
    (s.setChannel c r).completions = s.completions ∧ (s.setChannel c r).softEnd = s.softEnd ∧
    (s.setChannel c r).grant = s.grant ∧ (s.setChannel c r).hostWait = s.hostWait ∧
    (s.setChannel c r).engine = s.engine ∧ (s.setChannel c r).busDiv = s.busDiv ∧
    (s.setChannel c r).busDivInForce = s.busDivInForce ∧ (s.setChannel c r).busState = s.busState ∧
    (s.setChannel c r).purpose = s.purpose ∧ (s.setChannel c r).wakeTimer = s.wakeTimer ∧
    (s.setChannel c r).wakeLatched = s.wakeLatched ∧ (s.setChannel c r).wakeWaiting = s.wakeWaiting ∧
    (s.setChannel c r).wakeUs = s.wakeUs ∧ (s.setChannel c r).freeCount = s.freeCount ∧
    (s.setChannel c r).pending = s.pending ∧ (∀ k, (s.setChannel c r).duty k = s.duty k) ∧
    (∀ k, (s.setChannel c r).target k = s.target k) ∧ (∀ x, (s.setChannel c r).memByte x = s.memByte x) ∧
    (∀ k, (s.setChannel c r).online k = s.online k) ∧ (∀ k, (s.setChannel c r).dutyTarget k = s.dutyTarget k) ∧
    (∀ k, (s.setChannel c r).slackOf k = s.slackOf k) ∧
    (∀ x, (s.setChannel c r).descriptor x = s.descriptor x) ∧
    (∀ x, (s.setChannel c r).transactionKind x = s.transactionKind x) ∧
    (s.setChannel c r).frameOnBus = s.frameOnBus ∧ (s.setChannel c r).broadcastOnBus = s.broadcastOnBus ∧
    (s.setChannel c r).softResetPending = s.softResetPending ∧ (∀ q, (s.setChannel c r).latch q = s.latch q) ∧
    (∀ q, (s.setChannel c r).hold q = s.hold q) := by
  and_intros <;> first | rfl | (intro; rfl)

@[simp] theorem setTarget_reads (s : State) (t : Fin 16) (r : TargetRec) :
    (s.setTarget t r).phase = s.phase ∧ (s.setTarget t r).hostData = s.hostData ∧
    (s.setTarget t r).readLatch = s.readLatch ∧ (s.setTarget t r).writeHold = s.writeHold ∧
    (s.setTarget t r).unit = s.unit ∧ (s.setTarget t r).cmdOperand = s.cmdOperand ∧
    (s.setTarget t r).cmdCode = s.cmdCode ∧ (s.setTarget t r).cmdResult = s.cmdResult ∧
    (s.setTarget t r).noticeCause = s.noticeCause ∧ (s.setTarget t r).commandDone = s.commandDone ∧
    (s.setTarget t r).busStateCause = s.busStateCause ∧ (s.setTarget t r).guardCause = s.guardCause ∧
    (s.setTarget t r).collisionCause = s.collisionCause ∧ (s.setTarget t r).readyCause = s.readyCause ∧
    (s.setTarget t r).intEnable = s.intEnable ∧ (s.setTarget t r).tmPtr = s.tmPtr ∧
    (s.setTarget t r).guardAddr = s.guardAddr ∧ (s.setTarget t r).targets = s.targets.set t r ∧
    (s.setTarget t r).channels = s.channels ∧ (s.setTarget t r).duties = s.duties ∧
    (s.setTarget t r).mem = s.mem ∧ (s.setTarget t r).clockMhz = s.clockMhz ∧
    (s.setTarget t r).prescaler = s.prescaler ∧ (s.setTarget t r).prescalerDiv = s.prescalerDiv ∧
    (s.setTarget t r).tickPeriod = s.tickPeriod ∧ (s.setTarget t r).periodInForce = s.periodInForce ∧
    (s.setTarget t r).tickCount = s.tickCount ∧ (s.setTarget t r).ticksDue = s.ticksDue ∧
    (s.setTarget t r).dueQueue = s.dueQueue ∧ (s.setTarget t r).pullin = s.pullin ∧
    (s.setTarget t r).lineEdge = s.lineEdge ∧ (s.setTarget t r).lineLevel = s.lineLevel ∧
    (s.setTarget t r).channelPointer = s.channelPointer ∧ (s.setTarget t r).staging = s.staging ∧
    (s.setTarget t r).requests = s.requests ∧ (s.setTarget t r).inFlight = s.inFlight ∧
    (s.setTarget t r).completions = s.completions ∧ (s.setTarget t r).softEnd = s.softEnd ∧
    (s.setTarget t r).grant = s.grant ∧ (s.setTarget t r).hostWait = s.hostWait ∧
    (s.setTarget t r).engine = s.engine ∧ (s.setTarget t r).busDiv = s.busDiv ∧
    (s.setTarget t r).busDivInForce = s.busDivInForce ∧ (s.setTarget t r).busState = s.busState ∧
    (s.setTarget t r).purpose = s.purpose ∧ (s.setTarget t r).wakeTimer = s.wakeTimer ∧
    (s.setTarget t r).wakeLatched = s.wakeLatched ∧ (s.setTarget t r).wakeWaiting = s.wakeWaiting ∧
    (s.setTarget t r).wakeUs = s.wakeUs ∧ (s.setTarget t r).freeCount = s.freeCount ∧
    (s.setTarget t r).pending = s.pending ∧ (∀ k, (s.setTarget t r).duty k = s.duty k) ∧
    (∀ k, (s.setTarget t r).channel k = s.channel k) ∧ (∀ x, (s.setTarget t r).memByte x = s.memByte x) ∧
    (∀ k, (s.setTarget t r).dutyTarget k = s.dutyTarget k) ∧ (∀ k, (s.setTarget t r).slackOf k = s.slackOf k) ∧
    (∀ x, (s.setTarget t r).descriptor x = s.descriptor x) ∧
    (∀ k, (s.setTarget t r).currentDescriptor k = s.currentDescriptor k) ∧
    (∀ x, (s.setTarget t r).transactionKind x = s.transactionKind x) ∧
    (s.setTarget t r).frameOnBus = s.frameOnBus ∧ (s.setTarget t r).broadcastOnBus = s.broadcastOnBus ∧
    (s.setTarget t r).softResetPending = s.softResetPending ∧ (∀ q, (s.setTarget t r).latch q = s.latch q) ∧
    (∀ q, (s.setTarget t r).hold q = s.hold q) := by
  and_intros <;> first | rfl | (intro; rfl)

@[simp] theorem writeMem_reads (s : State) (a : Nat) (bs : List Byte) :
    (s.writeMem a bs).phase = s.phase ∧ (s.writeMem a bs).hostData = s.hostData ∧
    (s.writeMem a bs).readLatch = s.readLatch ∧ (s.writeMem a bs).writeHold = s.writeHold ∧
    (s.writeMem a bs).unit = s.unit ∧ (s.writeMem a bs).cmdOperand = s.cmdOperand ∧
    (s.writeMem a bs).cmdCode = s.cmdCode ∧ (s.writeMem a bs).cmdResult = s.cmdResult ∧
    (s.writeMem a bs).noticeCause = s.noticeCause ∧ (s.writeMem a bs).commandDone = s.commandDone ∧
    (s.writeMem a bs).busStateCause = s.busStateCause ∧ (s.writeMem a bs).guardCause = s.guardCause ∧
    (s.writeMem a bs).collisionCause = s.collisionCause ∧ (s.writeMem a bs).readyCause = s.readyCause ∧
    (s.writeMem a bs).intEnable = s.intEnable ∧ (s.writeMem a bs).tmPtr = s.tmPtr ∧
    (s.writeMem a bs).guardAddr = s.guardAddr ∧ (s.writeMem a bs).targets = s.targets ∧
    (s.writeMem a bs).channels = s.channels ∧ (s.writeMem a bs).duties = s.duties ∧
    (s.writeMem a bs).mem = memWriteList s.mem a bs ∧ (s.writeMem a bs).clockMhz = s.clockMhz ∧
    (s.writeMem a bs).prescaler = s.prescaler ∧ (s.writeMem a bs).prescalerDiv = s.prescalerDiv ∧
    (s.writeMem a bs).tickPeriod = s.tickPeriod ∧ (s.writeMem a bs).periodInForce = s.periodInForce ∧
    (s.writeMem a bs).tickCount = s.tickCount ∧ (s.writeMem a bs).ticksDue = s.ticksDue ∧
    (s.writeMem a bs).dueQueue = s.dueQueue ∧ (s.writeMem a bs).pullin = s.pullin ∧
    (s.writeMem a bs).lineEdge = s.lineEdge ∧ (s.writeMem a bs).lineLevel = s.lineLevel ∧
    (s.writeMem a bs).channelPointer = s.channelPointer ∧ (s.writeMem a bs).staging = s.staging ∧
    (s.writeMem a bs).requests = s.requests ∧ (s.writeMem a bs).inFlight = s.inFlight ∧
    (s.writeMem a bs).completions = s.completions ∧ (s.writeMem a bs).softEnd = s.softEnd ∧
    (s.writeMem a bs).grant = s.grant ∧ (s.writeMem a bs).hostWait = s.hostWait ∧
    (s.writeMem a bs).engine = s.engine ∧ (s.writeMem a bs).busDiv = s.busDiv ∧
    (s.writeMem a bs).busDivInForce = s.busDivInForce ∧ (s.writeMem a bs).busState = s.busState ∧
    (s.writeMem a bs).purpose = s.purpose ∧ (s.writeMem a bs).wakeTimer = s.wakeTimer ∧
    (s.writeMem a bs).wakeLatched = s.wakeLatched ∧ (s.writeMem a bs).wakeWaiting = s.wakeWaiting ∧
    (s.writeMem a bs).wakeUs = s.wakeUs ∧ (s.writeMem a bs).freeCount = s.freeCount ∧
    (s.writeMem a bs).pending = s.pending ∧ (∀ k, (s.writeMem a bs).duty k = s.duty k) ∧
    (∀ k, (s.writeMem a bs).channel k = s.channel k) ∧ (∀ k, (s.writeMem a bs).target k = s.target k) ∧
    (∀ k, (s.writeMem a bs).online k = s.online k) ∧ (∀ k, (s.writeMem a bs).dutyTarget k = s.dutyTarget k) ∧
    (∀ k, (s.writeMem a bs).slackOf k = s.slackOf k) ∧ (s.writeMem a bs).frameOnBus = s.frameOnBus ∧
    (s.writeMem a bs).broadcastOnBus = s.broadcastOnBus ∧
    (s.writeMem a bs).softResetPending = s.softResetPending ∧ (∀ q, (s.writeMem a bs).latch q = s.latch q) ∧
    (∀ q, (s.writeMem a bs).hold q = s.hold q) := by
  and_intros <;> first | rfl | (intro; rfl)

@[simp] theorem endGrant_reads (s : State) :
    (s.endGrant).phase = s.phase ∧ (s.endGrant).hostData = s.hostData ∧ (s.endGrant).readLatch = s.readLatch ∧
    (s.endGrant).writeHold = s.writeHold ∧ (s.endGrant).unit = s.unit ∧ (s.endGrant).cmdOperand = s.cmdOperand ∧
    (s.endGrant).cmdCode = s.cmdCode ∧ (s.endGrant).cmdResult = s.cmdResult ∧
    (s.endGrant).noticeCause = s.noticeCause ∧ (s.endGrant).commandDone = s.commandDone ∧
    (s.endGrant).busStateCause = s.busStateCause ∧ (s.endGrant).guardCause = s.guardCause ∧
    (s.endGrant).collisionCause = s.collisionCause ∧ (s.endGrant).readyCause = s.readyCause ∧
    (s.endGrant).intEnable = s.intEnable ∧ (s.endGrant).tmPtr = s.tmPtr ∧ (s.endGrant).guardAddr = s.guardAddr ∧
    (s.endGrant).targets = s.targets ∧ (s.endGrant).channels = s.channels ∧ (s.endGrant).duties = s.duties ∧
    (s.endGrant).mem = s.mem ∧ (s.endGrant).clockMhz = s.clockMhz ∧ (s.endGrant).prescaler = s.prescaler ∧
    (s.endGrant).prescalerDiv = s.prescalerDiv ∧ (s.endGrant).tickPeriod = s.tickPeriod ∧
    (s.endGrant).periodInForce = s.periodInForce ∧ (s.endGrant).tickCount = s.tickCount ∧
    (s.endGrant).ticksDue = s.ticksDue ∧ (s.endGrant).dueQueue = s.dueQueue ∧ (s.endGrant).pullin = s.pullin ∧
    (s.endGrant).lineEdge = s.lineEdge ∧ (s.endGrant).lineLevel = s.lineLevel ∧
    (s.endGrant).channelPointer = s.channelPointer ∧ (s.endGrant).staging = s.staging ∧
    (s.endGrant).requests = s.requests ∧ (s.endGrant).inFlight = s.inFlight ∧
    (s.endGrant).completions = s.completions ∧ (s.endGrant).softEnd = s.softEnd ∧ (s.endGrant).grant = none ∧
    (s.endGrant).hostWait = s.hostWait ∧ (s.endGrant).engine = .gap ∧ (s.endGrant).busDiv = s.busDiv ∧
    (s.endGrant).busDivInForce = s.busDivInForce ∧ (s.endGrant).busState = s.busState ∧
    (s.endGrant).purpose = s.purpose ∧ (s.endGrant).wakeTimer = s.wakeTimer ∧
    (s.endGrant).wakeLatched = s.wakeLatched ∧ (s.endGrant).wakeWaiting = s.wakeWaiting ∧
    (s.endGrant).wakeUs = s.wakeUs ∧ (s.endGrant).freeCount = s.freeCount ∧ (s.endGrant).pending = s.pending ∧
    (∀ k, (s.endGrant).duty k = s.duty k) ∧ (∀ k, (s.endGrant).channel k = s.channel k) ∧
    (∀ k, (s.endGrant).target k = s.target k) ∧ (∀ x, (s.endGrant).memByte x = s.memByte x) ∧
    (∀ k, (s.endGrant).online k = s.online k) ∧ (∀ k, (s.endGrant).dutyTarget k = s.dutyTarget k) ∧
    (∀ k, (s.endGrant).slackOf k = s.slackOf k) ∧ (∀ x, (s.endGrant).descriptor x = s.descriptor x) ∧
    (∀ k, (s.endGrant).currentDescriptor k = s.currentDescriptor k) ∧
    (∀ x, (s.endGrant).transactionKind x = s.transactionKind x) ∧
    (s.endGrant).softResetPending = s.softResetPending ∧ (∀ q, (s.endGrant).latch q = s.latch q) ∧
    (∀ q, (s.endGrant).hold q = s.hold q) := by
  and_intros <;> first | rfl | (intro; rfl)

@[simp] theorem completeCommand_reads (s : State) :
    (s.completeCommand).phase = s.phase ∧ (s.completeCommand).hostData = s.hostData ∧
    (s.completeCommand).readLatch = s.readLatch ∧ (s.completeCommand).writeHold = s.writeHold ∧
    (s.completeCommand).unit = .ready ∧ (s.completeCommand).cmdOperand = s.cmdOperand ∧
    (s.completeCommand).cmdCode = s.cmdCode ∧ (s.completeCommand).cmdResult = 0 ∧
    (s.completeCommand).noticeCause = s.noticeCause ∧ (s.completeCommand).commandDone = true ∧
    (s.completeCommand).busStateCause = s.busStateCause ∧ (s.completeCommand).guardCause = s.guardCause ∧
    (s.completeCommand).collisionCause = s.collisionCause ∧ (s.completeCommand).readyCause = s.readyCause ∧
    (s.completeCommand).intEnable = s.intEnable ∧ (s.completeCommand).tmPtr = s.tmPtr ∧
    (s.completeCommand).guardAddr = s.guardAddr ∧ (s.completeCommand).targets = s.targets ∧
    (s.completeCommand).channels = s.channels ∧ (s.completeCommand).duties = s.duties ∧
    (s.completeCommand).mem = s.mem ∧ (s.completeCommand).clockMhz = s.clockMhz ∧
    (s.completeCommand).prescaler = s.prescaler ∧ (s.completeCommand).prescalerDiv = s.prescalerDiv ∧
    (s.completeCommand).tickPeriod = s.tickPeriod ∧ (s.completeCommand).periodInForce = s.periodInForce ∧
    (s.completeCommand).tickCount = s.tickCount ∧ (s.completeCommand).ticksDue = s.ticksDue ∧
    (s.completeCommand).dueQueue = s.dueQueue ∧ (s.completeCommand).pullin = s.pullin ∧
    (s.completeCommand).lineEdge = s.lineEdge ∧ (s.completeCommand).lineLevel = s.lineLevel ∧
    (s.completeCommand).channelPointer = s.channelPointer ∧ (s.completeCommand).staging = s.staging ∧
    (s.completeCommand).requests = s.requests ∧ (s.completeCommand).inFlight = s.inFlight ∧
    (s.completeCommand).completions = s.completions ∧ (s.completeCommand).softEnd = s.softEnd ∧
    (s.completeCommand).grant = s.grant ∧ (s.completeCommand).hostWait = s.hostWait ∧
    (s.completeCommand).engine = s.engine ∧ (s.completeCommand).busDiv = s.busDiv ∧
    (s.completeCommand).busDivInForce = s.busDivInForce ∧ (s.completeCommand).busState = s.busState ∧
    (s.completeCommand).purpose = s.purpose ∧ (s.completeCommand).wakeTimer = s.wakeTimer ∧
    (s.completeCommand).wakeLatched = s.wakeLatched ∧ (s.completeCommand).wakeWaiting = s.wakeWaiting ∧
    (s.completeCommand).wakeUs = s.wakeUs ∧ (s.completeCommand).freeCount = s.freeCount ∧
    (s.completeCommand).pending = s.pending ∧ (∀ k, (s.completeCommand).duty k = s.duty k) ∧
    (∀ k, (s.completeCommand).channel k = s.channel k) ∧ (∀ k, (s.completeCommand).target k = s.target k) ∧
    (∀ x, (s.completeCommand).memByte x = s.memByte x) ∧ (∀ k, (s.completeCommand).online k = s.online k) ∧
    (∀ k, (s.completeCommand).dutyTarget k = s.dutyTarget k) ∧
    (∀ k, (s.completeCommand).slackOf k = s.slackOf k) ∧
    (∀ x, (s.completeCommand).descriptor x = s.descriptor x) ∧
    (∀ k, (s.completeCommand).currentDescriptor k = s.currentDescriptor k) ∧
    (∀ x, (s.completeCommand).transactionKind x = s.transactionKind x) ∧
    (s.completeCommand).frameOnBus = s.frameOnBus ∧ (s.completeCommand).broadcastOnBus = s.broadcastOnBus ∧
    (∀ q, (s.completeCommand).latch q = s.latch q) ∧ (∀ q, (s.completeCommand).hold q = s.hold q) := by
  and_intros <;> first | rfl | (intro; rfl)

@[simp] theorem insertDue_reads (s : State) (n : Fin 32) :
    (s.insertDue n).phase = s.phase ∧ (s.insertDue n).hostData = s.hostData ∧
    (s.insertDue n).readLatch = s.readLatch ∧ (s.insertDue n).writeHold = s.writeHold ∧
    (s.insertDue n).unit = s.unit ∧ (s.insertDue n).cmdOperand = s.cmdOperand ∧
    (s.insertDue n).cmdCode = s.cmdCode ∧ (s.insertDue n).cmdResult = s.cmdResult ∧
    (s.insertDue n).noticeCause = s.noticeCause ∧ (s.insertDue n).commandDone = s.commandDone ∧
    (s.insertDue n).busStateCause = s.busStateCause ∧ (s.insertDue n).guardCause = s.guardCause ∧
    (s.insertDue n).collisionCause = s.collisionCause ∧ (s.insertDue n).readyCause = s.readyCause ∧
    (s.insertDue n).intEnable = s.intEnable ∧ (s.insertDue n).tmPtr = s.tmPtr ∧
    (s.insertDue n).guardAddr = s.guardAddr ∧ (s.insertDue n).targets = s.targets ∧
    (s.insertDue n).channels = s.channels ∧ (s.insertDue n).duties = s.duties ∧ (s.insertDue n).mem = s.mem ∧
    (s.insertDue n).clockMhz = s.clockMhz ∧ (s.insertDue n).prescaler = s.prescaler ∧
    (s.insertDue n).prescalerDiv = s.prescalerDiv ∧ (s.insertDue n).tickPeriod = s.tickPeriod ∧
    (s.insertDue n).periodInForce = s.periodInForce ∧ (s.insertDue n).tickCount = s.tickCount ∧
    (s.insertDue n).ticksDue = s.ticksDue ∧ (s.insertDue n).dueQueue = placeBySlack s.slackOf n s.dueQueue ∧
    (s.insertDue n).pullin = s.pullin ∧ (s.insertDue n).lineEdge = s.lineEdge ∧
    (s.insertDue n).lineLevel = s.lineLevel ∧ (s.insertDue n).channelPointer = s.channelPointer ∧
    (s.insertDue n).staging = s.staging ∧ (s.insertDue n).requests = s.requests ∧
    (s.insertDue n).inFlight = s.inFlight ∧ (s.insertDue n).completions = s.completions ∧
    (s.insertDue n).softEnd = s.softEnd ∧ (s.insertDue n).grant = s.grant ∧
    (s.insertDue n).hostWait = s.hostWait ∧ (s.insertDue n).engine = s.engine ∧
    (s.insertDue n).busDiv = s.busDiv ∧ (s.insertDue n).busDivInForce = s.busDivInForce ∧
    (s.insertDue n).busState = s.busState ∧ (s.insertDue n).purpose = s.purpose ∧
    (s.insertDue n).wakeTimer = s.wakeTimer ∧ (s.insertDue n).wakeLatched = s.wakeLatched ∧
    (s.insertDue n).wakeWaiting = s.wakeWaiting ∧ (s.insertDue n).wakeUs = s.wakeUs ∧
    (s.insertDue n).freeCount = s.freeCount ∧ (s.insertDue n).pending = s.pending ∧
    (∀ k, (s.insertDue n).duty k = s.duty k) ∧ (∀ k, (s.insertDue n).channel k = s.channel k) ∧
    (∀ k, (s.insertDue n).target k = s.target k) ∧ (∀ x, (s.insertDue n).memByte x = s.memByte x) ∧
    (∀ k, (s.insertDue n).online k = s.online k) ∧ (∀ k, (s.insertDue n).dutyTarget k = s.dutyTarget k) ∧
    (∀ k, (s.insertDue n).slackOf k = s.slackOf k) ∧ (∀ x, (s.insertDue n).descriptor x = s.descriptor x) ∧
    (∀ k, (s.insertDue n).currentDescriptor k = s.currentDescriptor k) ∧
    (∀ x, (s.insertDue n).transactionKind x = s.transactionKind x) ∧ (s.insertDue n).frameOnBus = s.frameOnBus ∧
    (s.insertDue n).broadcastOnBus = s.broadcastOnBus ∧ (s.insertDue n).softResetPending = s.softResetPending ∧
    (∀ q, (s.insertDue n).latch q = s.latch q) ∧ (∀ q, (s.insertDue n).hold q = s.hold q) := by
  and_intros <;> first | rfl | (intro; rfl)

@[simp] theorem removeDue_reads (s : State) (n : Fin 32) :
    (s.removeDue n).phase = s.phase ∧ (s.removeDue n).hostData = s.hostData ∧
    (s.removeDue n).readLatch = s.readLatch ∧ (s.removeDue n).writeHold = s.writeHold ∧
    (s.removeDue n).unit = s.unit ∧ (s.removeDue n).cmdOperand = s.cmdOperand ∧
    (s.removeDue n).cmdCode = s.cmdCode ∧ (s.removeDue n).cmdResult = s.cmdResult ∧
    (s.removeDue n).noticeCause = s.noticeCause ∧ (s.removeDue n).commandDone = s.commandDone ∧
    (s.removeDue n).busStateCause = s.busStateCause ∧ (s.removeDue n).guardCause = s.guardCause ∧
    (s.removeDue n).collisionCause = s.collisionCause ∧ (s.removeDue n).readyCause = s.readyCause ∧
    (s.removeDue n).intEnable = s.intEnable ∧ (s.removeDue n).tmPtr = s.tmPtr ∧
    (s.removeDue n).guardAddr = s.guardAddr ∧ (s.removeDue n).targets = s.targets ∧
    (s.removeDue n).channels = s.channels ∧ (s.removeDue n).duties = s.duties ∧ (s.removeDue n).mem = s.mem ∧
    (s.removeDue n).clockMhz = s.clockMhz ∧ (s.removeDue n).prescaler = s.prescaler ∧
    (s.removeDue n).prescalerDiv = s.prescalerDiv ∧ (s.removeDue n).tickPeriod = s.tickPeriod ∧
    (s.removeDue n).periodInForce = s.periodInForce ∧ (s.removeDue n).tickCount = s.tickCount ∧
    (s.removeDue n).ticksDue = s.ticksDue ∧ (s.removeDue n).dueQueue = s.dueQueue.filter (fun k => k != n) ∧
    (s.removeDue n).pullin = s.pullin ∧ (s.removeDue n).lineEdge = s.lineEdge ∧
    (s.removeDue n).lineLevel = s.lineLevel ∧ (s.removeDue n).channelPointer = s.channelPointer ∧
    (s.removeDue n).staging = s.staging ∧ (s.removeDue n).requests = s.requests ∧
    (s.removeDue n).inFlight = s.inFlight ∧ (s.removeDue n).completions = s.completions ∧
    (s.removeDue n).softEnd = s.softEnd ∧ (s.removeDue n).grant = s.grant ∧
    (s.removeDue n).hostWait = s.hostWait ∧ (s.removeDue n).engine = s.engine ∧
    (s.removeDue n).busDiv = s.busDiv ∧ (s.removeDue n).busDivInForce = s.busDivInForce ∧
    (s.removeDue n).busState = s.busState ∧ (s.removeDue n).purpose = s.purpose ∧
    (s.removeDue n).wakeTimer = s.wakeTimer ∧ (s.removeDue n).wakeLatched = s.wakeLatched ∧
    (s.removeDue n).wakeWaiting = s.wakeWaiting ∧ (s.removeDue n).wakeUs = s.wakeUs ∧
    (s.removeDue n).freeCount = s.freeCount ∧ (s.removeDue n).pending = s.pending ∧
    (∀ k, (s.removeDue n).duty k = s.duty k) ∧ (∀ k, (s.removeDue n).channel k = s.channel k) ∧
    (∀ k, (s.removeDue n).target k = s.target k) ∧ (∀ x, (s.removeDue n).memByte x = s.memByte x) ∧
    (∀ k, (s.removeDue n).online k = s.online k) ∧ (∀ k, (s.removeDue n).dutyTarget k = s.dutyTarget k) ∧
    (∀ k, (s.removeDue n).slackOf k = s.slackOf k) ∧ (∀ x, (s.removeDue n).descriptor x = s.descriptor x) ∧
    (∀ k, (s.removeDue n).currentDescriptor k = s.currentDescriptor k) ∧
    (∀ x, (s.removeDue n).transactionKind x = s.transactionKind x) ∧ (s.removeDue n).frameOnBus = s.frameOnBus ∧
    (s.removeDue n).broadcastOnBus = s.broadcastOnBus ∧ (s.removeDue n).softResetPending = s.softResetPending ∧
    (∀ q, (s.removeDue n).latch q = s.latch q) ∧ (∀ q, (s.removeDue n).hold q = s.hold q) := by
  and_intros <;> first | rfl | (intro; rfl)

@[simp] theorem setRequests_reads (s : State) (rs : List Request) :
    (s.setRequests rs).phase = s.phase ∧ (s.setRequests rs).hostData = s.hostData ∧
    (s.setRequests rs).readLatch = s.readLatch ∧ (s.setRequests rs).writeHold = s.writeHold ∧
    (s.setRequests rs).unit = s.unit ∧ (s.setRequests rs).cmdOperand = s.cmdOperand ∧
    (s.setRequests rs).cmdCode = s.cmdCode ∧ (s.setRequests rs).cmdResult = s.cmdResult ∧
    (s.setRequests rs).noticeCause = s.noticeCause ∧ (s.setRequests rs).commandDone = s.commandDone ∧
    (s.setRequests rs).busStateCause = s.busStateCause ∧ (s.setRequests rs).guardCause = s.guardCause ∧
    (s.setRequests rs).collisionCause = s.collisionCause ∧ (s.setRequests rs).readyCause = s.readyCause ∧
    (s.setRequests rs).intEnable = s.intEnable ∧ (s.setRequests rs).tmPtr = s.tmPtr ∧
    (s.setRequests rs).guardAddr = s.guardAddr ∧ (s.setRequests rs).targets = s.targets ∧
    (s.setRequests rs).channels = s.channels ∧ (s.setRequests rs).duties = s.duties ∧
    (s.setRequests rs).mem = s.mem ∧ (s.setRequests rs).clockMhz = s.clockMhz ∧
    (s.setRequests rs).prescaler = s.prescaler ∧ (s.setRequests rs).prescalerDiv = s.prescalerDiv ∧
    (s.setRequests rs).tickPeriod = s.tickPeriod ∧ (s.setRequests rs).periodInForce = s.periodInForce ∧
    (s.setRequests rs).tickCount = s.tickCount ∧ (s.setRequests rs).ticksDue = s.ticksDue ∧
    (s.setRequests rs).dueQueue = s.dueQueue ∧ (s.setRequests rs).pullin = s.pullin ∧
    (s.setRequests rs).lineEdge = s.lineEdge ∧ (s.setRequests rs).lineLevel = s.lineLevel ∧
    (s.setRequests rs).channelPointer = s.channelPointer ∧ (s.setRequests rs).staging = s.staging ∧
    (s.setRequests rs).requests = rs ∧ (s.setRequests rs).inFlight = s.inFlight ∧
    (s.setRequests rs).completions = s.completions ∧ (s.setRequests rs).softEnd = s.softEnd ∧
    (s.setRequests rs).grant = s.grant ∧ (s.setRequests rs).hostWait = (if rs.isEmpty then 0 else s.hostWait) ∧
    (s.setRequests rs).engine = s.engine ∧ (s.setRequests rs).busDiv = s.busDiv ∧
    (s.setRequests rs).busDivInForce = s.busDivInForce ∧ (s.setRequests rs).busState = s.busState ∧
    (s.setRequests rs).purpose = s.purpose ∧ (s.setRequests rs).wakeTimer = s.wakeTimer ∧
    (s.setRequests rs).wakeLatched = s.wakeLatched ∧ (s.setRequests rs).wakeWaiting = s.wakeWaiting ∧
    (s.setRequests rs).wakeUs = s.wakeUs ∧ (s.setRequests rs).freeCount = s.freeCount ∧
    (s.setRequests rs).pending = s.pending ∧ (∀ k, (s.setRequests rs).duty k = s.duty k) ∧
    (∀ k, (s.setRequests rs).channel k = s.channel k) ∧ (∀ k, (s.setRequests rs).target k = s.target k) ∧
    (∀ x, (s.setRequests rs).memByte x = s.memByte x) ∧ (∀ k, (s.setRequests rs).online k = s.online k) ∧
    (∀ k, (s.setRequests rs).dutyTarget k = s.dutyTarget k) ∧
    (∀ k, (s.setRequests rs).slackOf k = s.slackOf k) ∧
    (∀ x, (s.setRequests rs).descriptor x = s.descriptor x) ∧
    (∀ k, (s.setRequests rs).currentDescriptor k = s.currentDescriptor k) ∧
    (∀ x, (s.setRequests rs).transactionKind x = s.transactionKind x) ∧
    (s.setRequests rs).frameOnBus = s.frameOnBus ∧ (s.setRequests rs).broadcastOnBus = s.broadcastOnBus ∧
    (s.setRequests rs).softResetPending = s.softResetPending ∧ (∀ q, (s.setRequests rs).latch q = s.latch q) ∧
    (∀ q, (s.setRequests rs).hold q = s.hold q) := by
  and_intros <;> first | rfl | (intro; rfl)

@[simp] theorem appendCompletions_reads (s : State) (cs : List Completion) :
    (s.appendCompletions cs).phase = s.phase ∧ (s.appendCompletions cs).hostData = s.hostData ∧
    (s.appendCompletions cs).readLatch = s.readLatch ∧ (s.appendCompletions cs).writeHold = s.writeHold ∧
    (s.appendCompletions cs).unit = s.unit ∧ (s.appendCompletions cs).cmdOperand = s.cmdOperand ∧
    (s.appendCompletions cs).cmdCode = s.cmdCode ∧ (s.appendCompletions cs).cmdResult = s.cmdResult ∧
    (s.appendCompletions cs).noticeCause = s.noticeCause ∧
    (s.appendCompletions cs).commandDone = s.commandDone ∧
    (s.appendCompletions cs).busStateCause = s.busStateCause ∧
    (s.appendCompletions cs).guardCause = s.guardCause ∧
    (s.appendCompletions cs).collisionCause = s.collisionCause ∧
    (s.appendCompletions cs).readyCause = s.readyCause ∧ (s.appendCompletions cs).intEnable = s.intEnable ∧
    (s.appendCompletions cs).tmPtr = s.tmPtr ∧ (s.appendCompletions cs).guardAddr = s.guardAddr ∧
    (s.appendCompletions cs).targets = s.targets ∧ (s.appendCompletions cs).channels = s.channels ∧
    (s.appendCompletions cs).duties = s.duties ∧ (s.appendCompletions cs).mem = s.mem ∧
    (s.appendCompletions cs).clockMhz = s.clockMhz ∧ (s.appendCompletions cs).prescaler = s.prescaler ∧
    (s.appendCompletions cs).prescalerDiv = s.prescalerDiv ∧
    (s.appendCompletions cs).tickPeriod = s.tickPeriod ∧
    (s.appendCompletions cs).periodInForce = s.periodInForce ∧
    (s.appendCompletions cs).tickCount = s.tickCount ∧ (s.appendCompletions cs).ticksDue = s.ticksDue ∧
    (s.appendCompletions cs).dueQueue = s.dueQueue ∧ (s.appendCompletions cs).pullin = s.pullin ∧
    (s.appendCompletions cs).lineEdge = s.lineEdge ∧ (s.appendCompletions cs).lineLevel = s.lineLevel ∧
    (s.appendCompletions cs).channelPointer = s.channelPointer ∧ (s.appendCompletions cs).staging = s.staging ∧
    (s.appendCompletions cs).requests = s.requests ∧ (s.appendCompletions cs).inFlight = s.inFlight ∧
    (s.appendCompletions cs).completions = s.completions ++ cs ∧ (s.appendCompletions cs).softEnd = s.softEnd ∧
    (s.appendCompletions cs).grant = s.grant ∧ (s.appendCompletions cs).hostWait = s.hostWait ∧
    (s.appendCompletions cs).engine = s.engine ∧ (s.appendCompletions cs).busDiv = s.busDiv ∧
    (s.appendCompletions cs).busDivInForce = s.busDivInForce ∧ (s.appendCompletions cs).busState = s.busState ∧
    (s.appendCompletions cs).purpose = s.purpose ∧ (s.appendCompletions cs).wakeTimer = s.wakeTimer ∧
    (s.appendCompletions cs).wakeLatched = s.wakeLatched ∧
    (s.appendCompletions cs).wakeWaiting = s.wakeWaiting ∧ (s.appendCompletions cs).wakeUs = s.wakeUs ∧
    (s.appendCompletions cs).freeCount = s.freeCount ∧ (s.appendCompletions cs).pending = s.pending ∧
    (∀ k, (s.appendCompletions cs).duty k = s.duty k) ∧
    (∀ k, (s.appendCompletions cs).channel k = s.channel k) ∧
    (∀ k, (s.appendCompletions cs).target k = s.target k) ∧
    (∀ x, (s.appendCompletions cs).memByte x = s.memByte x) ∧
    (∀ k, (s.appendCompletions cs).online k = s.online k) ∧
    (∀ k, (s.appendCompletions cs).dutyTarget k = s.dutyTarget k) ∧
    (∀ k, (s.appendCompletions cs).slackOf k = s.slackOf k) ∧
    (∀ x, (s.appendCompletions cs).descriptor x = s.descriptor x) ∧
    (∀ k, (s.appendCompletions cs).currentDescriptor k = s.currentDescriptor k) ∧
    (∀ x, (s.appendCompletions cs).transactionKind x = s.transactionKind x) ∧
    (s.appendCompletions cs).frameOnBus = s.frameOnBus ∧
    (s.appendCompletions cs).broadcastOnBus = s.broadcastOnBus ∧
    (s.appendCompletions cs).softResetPending = s.softResetPending ∧
    (∀ q, (s.appendCompletions cs).latch q = s.latch q) ∧ (∀ q, (s.appendCompletions cs).hold q = s.hold q) := by
  and_intros <;> first | rfl | (intro; rfl)

@[simp] theorem startFrame_reads (s : State) (f : Frame) :
    (s.startFrame f).phase = s.phase ∧ (s.startFrame f).hostData = s.hostData ∧
    (s.startFrame f).readLatch = s.readLatch ∧ (s.startFrame f).writeHold = s.writeHold ∧
    (s.startFrame f).unit = s.unit ∧ (s.startFrame f).cmdOperand = s.cmdOperand ∧
    (s.startFrame f).cmdCode = s.cmdCode ∧ (s.startFrame f).cmdResult = s.cmdResult ∧
    (s.startFrame f).noticeCause = s.noticeCause ∧ (s.startFrame f).commandDone = s.commandDone ∧
    (s.startFrame f).busStateCause = s.busStateCause ∧ (s.startFrame f).guardCause = s.guardCause ∧
    (s.startFrame f).collisionCause = s.collisionCause ∧ (s.startFrame f).readyCause = s.readyCause ∧
    (s.startFrame f).intEnable = s.intEnable ∧ (s.startFrame f).tmPtr = s.tmPtr ∧
    (s.startFrame f).guardAddr = s.guardAddr ∧ (s.startFrame f).targets = s.targets ∧
    (s.startFrame f).channels = s.channels ∧ (s.startFrame f).duties = s.duties ∧ (s.startFrame f).mem = s.mem ∧
    (s.startFrame f).clockMhz = s.clockMhz ∧ (s.startFrame f).prescaler = s.prescaler ∧
    (s.startFrame f).prescalerDiv = s.prescalerDiv ∧ (s.startFrame f).tickPeriod = s.tickPeriod ∧
    (s.startFrame f).periodInForce = s.periodInForce ∧ (s.startFrame f).tickCount = s.tickCount ∧
    (s.startFrame f).ticksDue = s.ticksDue ∧ (s.startFrame f).dueQueue = s.dueQueue ∧
    (s.startFrame f).pullin = s.pullin ∧ (s.startFrame f).lineEdge = s.lineEdge ∧
    (s.startFrame f).lineLevel = s.lineLevel ∧ (s.startFrame f).channelPointer = s.channelPointer ∧
    (s.startFrame f).staging = s.staging ∧ (s.startFrame f).requests = s.requests ∧
    (s.startFrame f).inFlight = s.inFlight ∧ (s.startFrame f).completions = s.completions ∧
    (s.startFrame f).softEnd = s.softEnd ∧ (s.startFrame f).grant = s.grant ∧
    (s.startFrame f).hostWait = s.hostWait ∧
    (s.startFrame f).engine = .attempt (s.newAttempt (s.frameFor f) 1) ∧ (s.startFrame f).busDiv = s.busDiv ∧
    (s.startFrame f).busDivInForce = s.busDiv ∧ (s.startFrame f).busState = s.busState ∧
    (s.startFrame f).purpose = s.purpose ∧ (s.startFrame f).wakeTimer = s.wakeTimer ∧
    (s.startFrame f).wakeLatched = s.wakeLatched ∧ (s.startFrame f).wakeWaiting = s.wakeWaiting ∧
    (s.startFrame f).wakeUs = s.wakeUs ∧ (s.startFrame f).freeCount = s.freeCount ∧
    (s.startFrame f).pending = s.pending ∧ (∀ k, (s.startFrame f).duty k = s.duty k) ∧
    (∀ k, (s.startFrame f).channel k = s.channel k) ∧ (∀ k, (s.startFrame f).target k = s.target k) ∧
    (∀ x, (s.startFrame f).memByte x = s.memByte x) ∧ (∀ k, (s.startFrame f).online k = s.online k) ∧
    (∀ k, (s.startFrame f).dutyTarget k = s.dutyTarget k) ∧ (∀ k, (s.startFrame f).slackOf k = s.slackOf k) ∧
    (∀ x, (s.startFrame f).descriptor x = s.descriptor x) ∧
    (∀ k, (s.startFrame f).currentDescriptor k = s.currentDescriptor k) ∧
    (∀ x, (s.startFrame f).transactionKind x = s.transactionKind x) ∧
    (s.startFrame f).softResetPending = s.softResetPending ∧ (∀ q, (s.startFrame f).latch q = s.latch q) ∧
    (∀ q, (s.startFrame f).hold q = s.hold q) := by
  and_intros <;> first | rfl | (intro; rfl)

@[simp] theorem startBroadcast_reads (s : State) (b : Broadcast) :
    (s.startBroadcast b).phase = s.phase ∧ (s.startBroadcast b).hostData = s.hostData ∧
    (s.startBroadcast b).readLatch = s.readLatch ∧ (s.startBroadcast b).writeHold = s.writeHold ∧
    (s.startBroadcast b).unit = s.unit ∧ (s.startBroadcast b).cmdOperand = s.cmdOperand ∧
    (s.startBroadcast b).cmdCode = s.cmdCode ∧ (s.startBroadcast b).cmdResult = s.cmdResult ∧
    (s.startBroadcast b).noticeCause = s.noticeCause ∧ (s.startBroadcast b).commandDone = s.commandDone ∧
    (s.startBroadcast b).busStateCause = s.busStateCause ∧ (s.startBroadcast b).guardCause = s.guardCause ∧
    (s.startBroadcast b).collisionCause = s.collisionCause ∧ (s.startBroadcast b).readyCause = s.readyCause ∧
    (s.startBroadcast b).intEnable = s.intEnable ∧ (s.startBroadcast b).tmPtr = s.tmPtr ∧
    (s.startBroadcast b).guardAddr = s.guardAddr ∧ (s.startBroadcast b).targets = s.targets ∧
    (s.startBroadcast b).channels = s.channels ∧ (s.startBroadcast b).duties = s.duties ∧
    (s.startBroadcast b).mem = s.mem ∧ (s.startBroadcast b).clockMhz = s.clockMhz ∧
    (s.startBroadcast b).prescaler = s.prescaler ∧ (s.startBroadcast b).prescalerDiv = s.prescalerDiv ∧
    (s.startBroadcast b).tickPeriod = s.tickPeriod ∧ (s.startBroadcast b).periodInForce = s.periodInForce ∧
    (s.startBroadcast b).tickCount = s.tickCount ∧ (s.startBroadcast b).ticksDue = s.ticksDue ∧
    (s.startBroadcast b).dueQueue = s.dueQueue ∧ (s.startBroadcast b).pullin = s.pullin ∧
    (s.startBroadcast b).lineEdge = s.lineEdge ∧ (s.startBroadcast b).lineLevel = s.lineLevel ∧
    (s.startBroadcast b).channelPointer = s.channelPointer ∧ (s.startBroadcast b).staging = s.staging ∧
    (s.startBroadcast b).requests = s.requests ∧ (s.startBroadcast b).inFlight = s.inFlight ∧
    (s.startBroadcast b).completions = s.completions ∧ (s.startBroadcast b).softEnd = s.softEnd ∧
    (s.startBroadcast b).grant = s.grant ∧ (s.startBroadcast b).hostWait = s.hostWait ∧
    (s.startBroadcast b).engine = .broadcast b ∧ (s.startBroadcast b).busDiv = s.busDiv ∧
    (s.startBroadcast b).busDivInForce = s.busDiv ∧ (s.startBroadcast b).busState = s.busState ∧
    (s.startBroadcast b).purpose = s.purpose ∧ (s.startBroadcast b).wakeTimer = s.wakeTimer ∧
    (s.startBroadcast b).wakeLatched = s.wakeLatched ∧ (s.startBroadcast b).wakeWaiting = s.wakeWaiting ∧
    (s.startBroadcast b).wakeUs = s.wakeUs ∧ (s.startBroadcast b).freeCount = s.freeCount ∧
    (s.startBroadcast b).pending = s.pending ∧ (∀ k, (s.startBroadcast b).duty k = s.duty k) ∧
    (∀ k, (s.startBroadcast b).channel k = s.channel k) ∧ (∀ k, (s.startBroadcast b).target k = s.target k) ∧
    (∀ x, (s.startBroadcast b).memByte x = s.memByte x) ∧ (∀ k, (s.startBroadcast b).online k = s.online k) ∧
    (∀ k, (s.startBroadcast b).dutyTarget k = s.dutyTarget k) ∧
    (∀ k, (s.startBroadcast b).slackOf k = s.slackOf k) ∧
    (∀ x, (s.startBroadcast b).descriptor x = s.descriptor x) ∧
    (∀ k, (s.startBroadcast b).currentDescriptor k = s.currentDescriptor k) ∧
    (∀ x, (s.startBroadcast b).transactionKind x = s.transactionKind x) ∧
    (s.startBroadcast b).softResetPending = s.softResetPending ∧
    (∀ q, (s.startBroadcast b).latch q = s.latch q) ∧ (∀ q, (s.startBroadcast b).hold q = s.hold q) := by
  and_intros <;> first | rfl | (intro; rfl)

@[simp] theorem startInterGap_reads (s : State) (pause : Nat) :
    (s.startInterGap pause).phase = s.phase ∧ (s.startInterGap pause).hostData = s.hostData ∧
    (s.startInterGap pause).readLatch = s.readLatch ∧ (s.startInterGap pause).writeHold = s.writeHold ∧
    (s.startInterGap pause).unit = s.unit ∧ (s.startInterGap pause).cmdOperand = s.cmdOperand ∧
    (s.startInterGap pause).cmdCode = s.cmdCode ∧ (s.startInterGap pause).cmdResult = s.cmdResult ∧
    (s.startInterGap pause).noticeCause = s.noticeCause ∧ (s.startInterGap pause).commandDone = s.commandDone ∧
    (s.startInterGap pause).busStateCause = s.busStateCause ∧
    (s.startInterGap pause).guardCause = s.guardCause ∧
    (s.startInterGap pause).collisionCause = s.collisionCause ∧
    (s.startInterGap pause).readyCause = s.readyCause ∧ (s.startInterGap pause).intEnable = s.intEnable ∧
    (s.startInterGap pause).tmPtr = s.tmPtr ∧ (s.startInterGap pause).guardAddr = s.guardAddr ∧
    (s.startInterGap pause).targets = s.targets ∧ (s.startInterGap pause).channels = s.channels ∧
    (s.startInterGap pause).duties = s.duties ∧ (s.startInterGap pause).mem = s.mem ∧
    (s.startInterGap pause).clockMhz = s.clockMhz ∧ (s.startInterGap pause).prescaler = s.prescaler ∧
    (s.startInterGap pause).prescalerDiv = s.prescalerDiv ∧ (s.startInterGap pause).tickPeriod = s.tickPeriod ∧
    (s.startInterGap pause).periodInForce = s.periodInForce ∧ (s.startInterGap pause).tickCount = s.tickCount ∧
    (s.startInterGap pause).ticksDue = s.ticksDue ∧ (s.startInterGap pause).dueQueue = s.dueQueue ∧
    (s.startInterGap pause).pullin = s.pullin ∧ (s.startInterGap pause).lineEdge = s.lineEdge ∧
    (s.startInterGap pause).lineLevel = s.lineLevel ∧
    (s.startInterGap pause).channelPointer = s.channelPointer ∧ (s.startInterGap pause).staging = s.staging ∧
    (s.startInterGap pause).requests = s.requests ∧ (s.startInterGap pause).inFlight = s.inFlight ∧
    (s.startInterGap pause).completions = s.completions ∧ (s.startInterGap pause).softEnd = s.softEnd ∧
    (s.startInterGap pause).grant = s.grant ∧ (s.startInterGap pause).hostWait = s.hostWait ∧
    (s.startInterGap pause).engine = .interGap (1 + pause) ∧ (s.startInterGap pause).busDiv = s.busDiv ∧
    (s.startInterGap pause).busDivInForce = s.busDivInForce ∧ (s.startInterGap pause).busState = s.busState ∧
    (s.startInterGap pause).purpose = s.purpose ∧ (s.startInterGap pause).wakeTimer = s.wakeTimer ∧
    (s.startInterGap pause).wakeLatched = s.wakeLatched ∧ (s.startInterGap pause).wakeWaiting = s.wakeWaiting ∧
    (s.startInterGap pause).wakeUs = s.wakeUs ∧ (s.startInterGap pause).freeCount = s.freeCount ∧
    (s.startInterGap pause).pending = s.pending ∧ (∀ k, (s.startInterGap pause).duty k = s.duty k) ∧
    (∀ k, (s.startInterGap pause).channel k = s.channel k) ∧
    (∀ k, (s.startInterGap pause).target k = s.target k) ∧
    (∀ x, (s.startInterGap pause).memByte x = s.memByte x) ∧
    (∀ k, (s.startInterGap pause).online k = s.online k) ∧
    (∀ k, (s.startInterGap pause).dutyTarget k = s.dutyTarget k) ∧
    (∀ k, (s.startInterGap pause).slackOf k = s.slackOf k) ∧
    (∀ x, (s.startInterGap pause).descriptor x = s.descriptor x) ∧
    (∀ k, (s.startInterGap pause).currentDescriptor k = s.currentDescriptor k) ∧
    (∀ x, (s.startInterGap pause).transactionKind x = s.transactionKind x) ∧
    (s.startInterGap pause).softResetPending = s.softResetPending ∧
    (∀ q, (s.startInterGap pause).latch q = s.latch q) ∧ (∀ q, (s.startInterGap pause).hold q = s.hold q) := by
  and_intros <;> first | rfl | (intro; rfl)

@[simp] theorem countOutcome_reads (s : State) (t : Fin 16) (j : FrameKind) (o : FrameOutcome) :
    (s.countOutcome t j o).phase = s.phase ∧ (s.countOutcome t j o).hostData = s.hostData ∧
    (s.countOutcome t j o).readLatch = s.readLatch ∧ (s.countOutcome t j o).writeHold = s.writeHold ∧
    (s.countOutcome t j o).unit = s.unit ∧ (s.countOutcome t j o).cmdOperand = s.cmdOperand ∧
    (s.countOutcome t j o).cmdCode = s.cmdCode ∧ (s.countOutcome t j o).cmdResult = s.cmdResult ∧
    (s.countOutcome t j o).noticeCause = s.noticeCause ∧ (s.countOutcome t j o).commandDone = s.commandDone ∧
    (s.countOutcome t j o).busStateCause = s.busStateCause ∧ (s.countOutcome t j o).guardCause = s.guardCause ∧
    (s.countOutcome t j o).collisionCause = s.collisionCause ∧
    (s.countOutcome t j o).readyCause = s.readyCause ∧ (s.countOutcome t j o).intEnable = s.intEnable ∧
    (s.countOutcome t j o).tmPtr = s.tmPtr ∧ (s.countOutcome t j o).guardAddr = s.guardAddr ∧
    (s.countOutcome t j o).targets = s.targets.set t ((s.target t).outcome j o) ∧
    (s.countOutcome t j o).channels = s.channels ∧ (s.countOutcome t j o).duties = s.duties ∧
    (s.countOutcome t j o).mem = s.mem ∧ (s.countOutcome t j o).clockMhz = s.clockMhz ∧
    (s.countOutcome t j o).prescaler = s.prescaler ∧ (s.countOutcome t j o).prescalerDiv = s.prescalerDiv ∧
    (s.countOutcome t j o).tickPeriod = s.tickPeriod ∧ (s.countOutcome t j o).periodInForce = s.periodInForce ∧
    (s.countOutcome t j o).tickCount = s.tickCount ∧ (s.countOutcome t j o).ticksDue = s.ticksDue ∧
    (s.countOutcome t j o).dueQueue = s.dueQueue ∧ (s.countOutcome t j o).pullin = s.pullin ∧
    (s.countOutcome t j o).lineEdge = s.lineEdge ∧ (s.countOutcome t j o).lineLevel = s.lineLevel ∧
    (s.countOutcome t j o).channelPointer = s.channelPointer ∧ (s.countOutcome t j o).staging = s.staging ∧
    (s.countOutcome t j o).requests = s.requests ∧ (s.countOutcome t j o).inFlight = s.inFlight ∧
    (s.countOutcome t j o).completions = s.completions ∧ (s.countOutcome t j o).softEnd = s.softEnd ∧
    (s.countOutcome t j o).grant = s.grant ∧ (s.countOutcome t j o).hostWait = s.hostWait ∧
    (s.countOutcome t j o).engine = s.engine ∧ (s.countOutcome t j o).busDiv = s.busDiv ∧
    (s.countOutcome t j o).busDivInForce = s.busDivInForce ∧ (s.countOutcome t j o).busState = s.busState ∧
    (s.countOutcome t j o).purpose = s.purpose ∧ (s.countOutcome t j o).wakeTimer = s.wakeTimer ∧
    (s.countOutcome t j o).wakeLatched = s.wakeLatched ∧ (s.countOutcome t j o).wakeWaiting = s.wakeWaiting ∧
    (s.countOutcome t j o).wakeUs = s.wakeUs ∧ (s.countOutcome t j o).freeCount = s.freeCount ∧
    (s.countOutcome t j o).pending = s.pending ∧ (∀ k, (s.countOutcome t j o).duty k = s.duty k) ∧
    (∀ k, (s.countOutcome t j o).channel k = s.channel k) ∧
    (∀ x, (s.countOutcome t j o).memByte x = s.memByte x) ∧
    (∀ k, (s.countOutcome t j o).dutyTarget k = s.dutyTarget k) ∧
    (∀ k, (s.countOutcome t j o).slackOf k = s.slackOf k) ∧
    (∀ x, (s.countOutcome t j o).descriptor x = s.descriptor x) ∧
    (∀ k, (s.countOutcome t j o).currentDescriptor k = s.currentDescriptor k) ∧
    (∀ x, (s.countOutcome t j o).transactionKind x = s.transactionKind x) ∧
    (s.countOutcome t j o).frameOnBus = s.frameOnBus ∧
    (s.countOutcome t j o).broadcastOnBus = s.broadcastOnBus ∧
    (s.countOutcome t j o).softResetPending = s.softResetPending ∧
    (∀ q, (s.countOutcome t j o).latch q = s.latch q) ∧ (∀ q, (s.countOutcome t j o).hold q = s.hold q) := by
  and_intros <;> first | rfl | (intro; rfl)

@[simp] theorem answer_reads (s : State) (b : Byte) :
    (s.answer b).phase = s.phase ∧ (s.answer b).hostData = b ∧ (s.answer b).readLatch = s.readLatch ∧
    (s.answer b).writeHold = s.writeHold ∧ (s.answer b).unit = s.unit ∧ (s.answer b).cmdOperand = s.cmdOperand ∧
    (s.answer b).cmdCode = s.cmdCode ∧ (s.answer b).cmdResult = s.cmdResult ∧
    (s.answer b).noticeCause = s.noticeCause ∧ (s.answer b).commandDone = s.commandDone ∧
    (s.answer b).busStateCause = s.busStateCause ∧ (s.answer b).guardCause = s.guardCause ∧
    (s.answer b).collisionCause = s.collisionCause ∧ (s.answer b).readyCause = s.readyCause ∧
    (s.answer b).intEnable = s.intEnable ∧ (s.answer b).tmPtr = s.tmPtr ∧ (s.answer b).guardAddr = s.guardAddr ∧
    (s.answer b).targets = s.targets ∧ (s.answer b).channels = s.channels ∧ (s.answer b).duties = s.duties ∧
    (s.answer b).mem = s.mem ∧ (s.answer b).clockMhz = s.clockMhz ∧ (s.answer b).prescaler = s.prescaler ∧
    (s.answer b).prescalerDiv = s.prescalerDiv ∧ (s.answer b).tickPeriod = s.tickPeriod ∧
    (s.answer b).periodInForce = s.periodInForce ∧ (s.answer b).tickCount = s.tickCount ∧
    (s.answer b).ticksDue = s.ticksDue ∧ (s.answer b).dueQueue = s.dueQueue ∧ (s.answer b).pullin = s.pullin ∧
    (s.answer b).lineEdge = s.lineEdge ∧ (s.answer b).lineLevel = s.lineLevel ∧
    (s.answer b).channelPointer = s.channelPointer ∧ (s.answer b).staging = s.staging ∧
    (s.answer b).requests = s.requests ∧ (s.answer b).inFlight = s.inFlight ∧
    (s.answer b).completions = s.completions ∧ (s.answer b).softEnd = s.softEnd ∧ (s.answer b).grant = s.grant ∧
    (s.answer b).hostWait = s.hostWait ∧ (s.answer b).engine = s.engine ∧ (s.answer b).busDiv = s.busDiv ∧
    (s.answer b).busDivInForce = s.busDivInForce ∧ (s.answer b).busState = s.busState ∧
    (s.answer b).purpose = s.purpose ∧ (s.answer b).wakeTimer = s.wakeTimer ∧
    (s.answer b).wakeLatched = s.wakeLatched ∧ (s.answer b).wakeWaiting = s.wakeWaiting ∧
    (s.answer b).wakeUs = s.wakeUs ∧ (s.answer b).freeCount = s.freeCount ∧ (s.answer b).pending = s.pending ∧
    (∀ k, (s.answer b).duty k = s.duty k) ∧ (∀ k, (s.answer b).channel k = s.channel k) ∧
    (∀ k, (s.answer b).target k = s.target k) ∧ (∀ x, (s.answer b).memByte x = s.memByte x) ∧
    (∀ k, (s.answer b).online k = s.online k) ∧ (∀ k, (s.answer b).dutyTarget k = s.dutyTarget k) ∧
    (∀ k, (s.answer b).slackOf k = s.slackOf k) ∧ (∀ x, (s.answer b).descriptor x = s.descriptor x) ∧
    (∀ k, (s.answer b).currentDescriptor k = s.currentDescriptor k) ∧
    (∀ x, (s.answer b).transactionKind x = s.transactionKind x) ∧ (s.answer b).frameOnBus = s.frameOnBus ∧
    (s.answer b).broadcastOnBus = s.broadcastOnBus ∧ (s.answer b).softResetPending = s.softResetPending ∧
    (∀ q, (s.answer b).latch q = s.latch q) ∧ (∀ q, (s.answer b).hold q = s.hold q) := by
  and_intros <;> first | rfl | (intro; rfl)

@[simp] theorem setLatch_reads (s : State) (r : Reg16) (b : Option Byte) :
    (s.setLatch r b).phase = s.phase ∧ (s.setLatch r b).hostData = s.hostData ∧
    (s.setLatch r b).readLatch = s.readLatch.set (latchIndex r) b ∧ (s.setLatch r b).writeHold = s.writeHold ∧
    (s.setLatch r b).unit = s.unit ∧ (s.setLatch r b).cmdOperand = s.cmdOperand ∧
    (s.setLatch r b).cmdCode = s.cmdCode ∧ (s.setLatch r b).cmdResult = s.cmdResult ∧
    (s.setLatch r b).noticeCause = s.noticeCause ∧ (s.setLatch r b).commandDone = s.commandDone ∧
    (s.setLatch r b).busStateCause = s.busStateCause ∧ (s.setLatch r b).guardCause = s.guardCause ∧
    (s.setLatch r b).collisionCause = s.collisionCause ∧ (s.setLatch r b).readyCause = s.readyCause ∧
    (s.setLatch r b).intEnable = s.intEnable ∧ (s.setLatch r b).tmPtr = s.tmPtr ∧
    (s.setLatch r b).guardAddr = s.guardAddr ∧ (s.setLatch r b).targets = s.targets ∧
    (s.setLatch r b).channels = s.channels ∧ (s.setLatch r b).duties = s.duties ∧ (s.setLatch r b).mem = s.mem ∧
    (s.setLatch r b).clockMhz = s.clockMhz ∧ (s.setLatch r b).prescaler = s.prescaler ∧
    (s.setLatch r b).prescalerDiv = s.prescalerDiv ∧ (s.setLatch r b).tickPeriod = s.tickPeriod ∧
    (s.setLatch r b).periodInForce = s.periodInForce ∧ (s.setLatch r b).tickCount = s.tickCount ∧
    (s.setLatch r b).ticksDue = s.ticksDue ∧ (s.setLatch r b).dueQueue = s.dueQueue ∧
    (s.setLatch r b).pullin = s.pullin ∧ (s.setLatch r b).lineEdge = s.lineEdge ∧
    (s.setLatch r b).lineLevel = s.lineLevel ∧ (s.setLatch r b).channelPointer = s.channelPointer ∧
    (s.setLatch r b).staging = s.staging ∧ (s.setLatch r b).requests = s.requests ∧
    (s.setLatch r b).inFlight = s.inFlight ∧ (s.setLatch r b).completions = s.completions ∧
    (s.setLatch r b).softEnd = s.softEnd ∧ (s.setLatch r b).grant = s.grant ∧
    (s.setLatch r b).hostWait = s.hostWait ∧ (s.setLatch r b).engine = s.engine ∧
    (s.setLatch r b).busDiv = s.busDiv ∧ (s.setLatch r b).busDivInForce = s.busDivInForce ∧
    (s.setLatch r b).busState = s.busState ∧ (s.setLatch r b).purpose = s.purpose ∧
    (s.setLatch r b).wakeTimer = s.wakeTimer ∧ (s.setLatch r b).wakeLatched = s.wakeLatched ∧
    (s.setLatch r b).wakeWaiting = s.wakeWaiting ∧ (s.setLatch r b).wakeUs = s.wakeUs ∧
    (s.setLatch r b).freeCount = s.freeCount ∧ (s.setLatch r b).pending = s.pending ∧
    (∀ k, (s.setLatch r b).duty k = s.duty k) ∧ (∀ k, (s.setLatch r b).channel k = s.channel k) ∧
    (∀ k, (s.setLatch r b).target k = s.target k) ∧ (∀ x, (s.setLatch r b).memByte x = s.memByte x) ∧
    (∀ k, (s.setLatch r b).online k = s.online k) ∧ (∀ k, (s.setLatch r b).dutyTarget k = s.dutyTarget k) ∧
    (∀ k, (s.setLatch r b).slackOf k = s.slackOf k) ∧ (∀ x, (s.setLatch r b).descriptor x = s.descriptor x) ∧
    (∀ k, (s.setLatch r b).currentDescriptor k = s.currentDescriptor k) ∧
    (∀ x, (s.setLatch r b).transactionKind x = s.transactionKind x) ∧
    (s.setLatch r b).frameOnBus = s.frameOnBus ∧ (s.setLatch r b).broadcastOnBus = s.broadcastOnBus ∧
    (s.setLatch r b).softResetPending = s.softResetPending ∧ (∀ q, (s.setLatch r b).hold q = s.hold q) := by
  and_intros <;> first | rfl | (intro; rfl)

@[simp] theorem setHold_reads (s : State) (w : WReg16) (b : Option Byte) :
    (s.setHold w b).phase = s.phase ∧ (s.setHold w b).hostData = s.hostData ∧
    (s.setHold w b).readLatch = s.readLatch ∧ (s.setHold w b).writeHold = s.writeHold.set (holdIndex w) b ∧
    (s.setHold w b).unit = s.unit ∧ (s.setHold w b).cmdOperand = s.cmdOperand ∧
    (s.setHold w b).cmdCode = s.cmdCode ∧ (s.setHold w b).cmdResult = s.cmdResult ∧
    (s.setHold w b).noticeCause = s.noticeCause ∧ (s.setHold w b).commandDone = s.commandDone ∧
    (s.setHold w b).busStateCause = s.busStateCause ∧ (s.setHold w b).guardCause = s.guardCause ∧
    (s.setHold w b).collisionCause = s.collisionCause ∧ (s.setHold w b).readyCause = s.readyCause ∧
    (s.setHold w b).intEnable = s.intEnable ∧ (s.setHold w b).tmPtr = s.tmPtr ∧
    (s.setHold w b).guardAddr = s.guardAddr ∧ (s.setHold w b).targets = s.targets ∧
    (s.setHold w b).channels = s.channels ∧ (s.setHold w b).duties = s.duties ∧ (s.setHold w b).mem = s.mem ∧
    (s.setHold w b).clockMhz = s.clockMhz ∧ (s.setHold w b).prescaler = s.prescaler ∧
    (s.setHold w b).prescalerDiv = s.prescalerDiv ∧ (s.setHold w b).tickPeriod = s.tickPeriod ∧
    (s.setHold w b).periodInForce = s.periodInForce ∧ (s.setHold w b).tickCount = s.tickCount ∧
    (s.setHold w b).ticksDue = s.ticksDue ∧ (s.setHold w b).dueQueue = s.dueQueue ∧
    (s.setHold w b).pullin = s.pullin ∧ (s.setHold w b).lineEdge = s.lineEdge ∧
    (s.setHold w b).lineLevel = s.lineLevel ∧ (s.setHold w b).channelPointer = s.channelPointer ∧
    (s.setHold w b).staging = s.staging ∧ (s.setHold w b).requests = s.requests ∧
    (s.setHold w b).inFlight = s.inFlight ∧ (s.setHold w b).completions = s.completions ∧
    (s.setHold w b).softEnd = s.softEnd ∧ (s.setHold w b).grant = s.grant ∧
    (s.setHold w b).hostWait = s.hostWait ∧ (s.setHold w b).engine = s.engine ∧
    (s.setHold w b).busDiv = s.busDiv ∧ (s.setHold w b).busDivInForce = s.busDivInForce ∧
    (s.setHold w b).busState = s.busState ∧ (s.setHold w b).purpose = s.purpose ∧
    (s.setHold w b).wakeTimer = s.wakeTimer ∧ (s.setHold w b).wakeLatched = s.wakeLatched ∧
    (s.setHold w b).wakeWaiting = s.wakeWaiting ∧ (s.setHold w b).wakeUs = s.wakeUs ∧
    (s.setHold w b).freeCount = s.freeCount ∧ (s.setHold w b).pending = s.pending ∧
    (∀ k, (s.setHold w b).duty k = s.duty k) ∧ (∀ k, (s.setHold w b).channel k = s.channel k) ∧
    (∀ k, (s.setHold w b).target k = s.target k) ∧ (∀ x, (s.setHold w b).memByte x = s.memByte x) ∧
    (∀ k, (s.setHold w b).online k = s.online k) ∧ (∀ k, (s.setHold w b).dutyTarget k = s.dutyTarget k) ∧
    (∀ k, (s.setHold w b).slackOf k = s.slackOf k) ∧ (∀ x, (s.setHold w b).descriptor x = s.descriptor x) ∧
    (∀ k, (s.setHold w b).currentDescriptor k = s.currentDescriptor k) ∧
    (∀ x, (s.setHold w b).transactionKind x = s.transactionKind x) ∧ (s.setHold w b).frameOnBus = s.frameOnBus ∧
    (s.setHold w b).broadcastOnBus = s.broadcastOnBus ∧ (s.setHold w b).softResetPending = s.softResetPending ∧
    (∀ q, (s.setHold w b).latch q = s.latch q) := by
  and_intros <;> first | rfl | (intro; rfl)

end Sys2Proof.Machine
end

