-- ==== Sys2Proof/Laws/Memory.lean ====
section
/-!
SUPPORT. The laws of memory: a byte reads what was last written to it, every other byte reads as before, and
every operation that writes memory keeps its one form.
-/

namespace Sys2Proof.Machine

open Sys2Proof

/-! ## One byte -/

/-- Writing one byte leaves every other byte as it was. -/
theorem memRead_memWrite_ne (m : List Host.Cell) {a b : Nat} (v : Byte) (h : b ≠ a) :
    memRead (memWrite m a v) b = memRead m b := by
  induction m with
  | nil => by_cases hv : v = 0#8 <;> simp [memWrite, memRead, hv, Ne.symm h]
  | cons c m ih =>
    obtain ⟨k, w⟩ := c
    by_cases hk : a < k
    · by_cases hv : v = 0#8 <;> simp [memWrite, memRead, hk, hv, Ne.symm h]
    · by_cases he : a = k
      · subst he
        by_cases hv : v = 0#8 <;> simp [memWrite, memRead, hv, Ne.symm h]
      · simp [memWrite, memRead, hk, he, ih]

/-- An address below the first of a list in form reads 0. -/
theorem memRead_of_lt {hi lo b : Nat} {m : List Host.Cell} (hm : memWfFrom hi lo m = true) (h : b < lo) :
    memRead m b = 0 := by
  induction m generalizing lo with
  | nil => rfl
  | cons c m ih =>
    obtain ⟨k, w⟩ := c
    simp only [memWfFrom, Bool.and_eq_true, decide_eq_true_eq] at hm
    have hk : k ≠ b := by omega
    simpa [memRead, hk] using ih hm.2 (by omega)

/-- In a list in form, a byte reads what was just written to it. -/
theorem memRead_memWrite_from {hi lo a : Nat} {m : List Host.Cell} (v : Byte) (hm : memWfFrom hi lo m = true) :
    memRead (memWrite m a v) a = v := by
  induction m generalizing lo with
  | nil => by_cases hv : v = 0#8 <;> simp [memWrite, memRead, hv]
  | cons c m ih =>
    obtain ⟨k, w⟩ := c
    simp only [memWfFrom, Bool.and_eq_true, decide_eq_true_eq] at hm
    by_cases hk : a < k
    · by_cases hv : v = 0#8
      · simpa [memWrite, memRead, hk, hv, Nat.ne_of_gt hk] using memRead_of_lt hm.2 (by omega)
      · simp [memWrite, memRead, hk, hv]
    · by_cases he : a = k
      · subst he
        by_cases hv : v = 0#8
        · simpa [memWrite, hv] using memRead_of_lt hm.2 (by omega)
        · simp [memWrite, memRead, hv]
      · simpa [memWrite, memRead, hk, he, Ne.symm he] using ih hm.2

theorem memRead_memWrite_same {m : List Host.Cell} (a : Nat) (v : Byte) (hm : memWf m = true) :
    memRead (memWrite m a v) a = v :=
  memRead_memWrite_from v hm

/-! ## The one form is kept -/

/-- A list in form above `lo` is in form above any lower bound. -/
theorem memWfFrom_mono {hi lo lo' : Nat} {m : List Host.Cell} (h : lo' ≤ lo) (hm : memWfFrom hi lo m = true) :
    memWfFrom hi lo' m = true := by
  cases m with
  | nil => rfl
  | cons c m =>
    obtain ⟨k, w⟩ := c
    simp only [memWfFrom, Bool.and_eq_true, decide_eq_true_eq] at hm ⊢
    exact ⟨⟨⟨by omega, hm.1.1.2⟩, hm.1.2⟩, hm.2⟩

theorem memWfFrom_memWrite {hi lo a : Nat} {m : List Host.Cell} (v : Byte) (hm : memWfFrom hi lo m = true)
    (hlo : lo ≤ a) (hhi : a < hi) : memWfFrom hi lo (memWrite m a v) = true := by
  induction m generalizing lo with
  | nil => by_cases hv : v = 0#8 <;> simp [memWrite, memWfFrom, hv, hlo, hhi]
  | cons c m ih =>
    obtain ⟨k, w⟩ := c
    have hm' := hm
    simp only [memWfFrom, Bool.and_eq_true, decide_eq_true_eq] at hm'
    obtain ⟨⟨⟨h1, h2⟩, h3⟩, h4⟩ := hm'
    by_cases hk : a < k
    · by_cases hv : v = 0#8
      · simpa [memWrite, hk, hv] using hm
      · have hw : memWrite ((k, w) :: m) a v = (a, v) :: (k, w) :: m := by simp [memWrite, hk, hv]
        simp only [hw, memWfFrom, Bool.and_eq_true, decide_eq_true_eq]
        exact ⟨⟨⟨hlo, hhi⟩, hv⟩, ⟨⟨by omega, h2⟩, h3⟩, h4⟩
    · by_cases he : a = k
      · subst he
        by_cases hv : v = 0#8
        · simpa [memWrite, hv] using memWfFrom_mono (by omega) h4
        · simp [memWrite, memWfFrom, hv, h1, h2, h4]
      · have := ih (lo := k + 1) h4 (by omega)
        simpa [memWrite, memWfFrom, hk, he, h1, h2, this] using h3

/-- A write within 0x0600 ... 0x1FFF keeps the form. -/
theorem memWf_memWrite {m : List Host.Cell} {a : Nat} (v : Byte) (hm : memWf m = true)
    (hlo : Config.descriptorBase ≤ a) (hhi : a < Config.tableSize) : memWf (memWrite m a v) = true :=
  memWfFrom_memWrite v hm hlo hhi

/-- A run of writes within 0x0600 ... 0x1FFF keeps the form. -/
theorem memWf_memWriteList {m : List Host.Cell} {a : Nat} (bs : List Byte) (hm : memWf m = true)
    (hlo : Config.descriptorBase ≤ a) (hhi : a + bs.length ≤ Config.tableSize) :
    memWf (memWriteList m a bs) = true := by
  induction bs generalizing m a with
  | nil => exact hm
  | cons b bs ih =>
    simp only [List.length_cons] at hhi
    exact ih (memWf_memWrite b hm hlo (by omega)) (by omega) (by omega)

theorem memWf_reset : memWf State.reset.mem = true := rfl

/-! ## Runs of bytes -/

/-- A run of writes leaves every byte outside it as it was. -/
theorem memRead_memWriteList_outside (m : List Host.Cell) {a b : Nat} (bs : List Byte)
    (h : b < a ∨ a + bs.length ≤ b) : memRead (memWriteList m a bs) b = memRead m b := by
  induction bs generalizing m a with
  | nil => rfl
  | cons v bs ih =>
    simp only [List.length_cons] at h
    have hb : b ≠ a := by omega
    rw [memWriteList, ih _ (by omega), memRead_memWrite_ne m v hb]

/-- Byte `k` of a run just written reads as written. -/
theorem memRead_memWriteList_inside {m : List Host.Cell} {a k : Nat} (bs : List Byte) (hm : memWf m = true)
    (hlo : Config.descriptorBase ≤ a) (hhi : a + bs.length ≤ Config.tableSize) (hk : k < bs.length) :
    memRead (memWriteList m a bs) (a + k) = bs.getD k 0 := by
  induction bs generalizing m a k with
  | nil => simp at hk
  | cons v bs ih =>
    simp only [List.length_cons] at hhi hk
    cases k with
    | zero =>
      rw [memWriteList, Nat.add_zero, memRead_memWriteList_outside _ _ (by omega)]
      simpa using memRead_memWrite_same a v hm
    | succ k =>
      have hw := memWf_memWrite v hm hlo (by omega)
      have := ih (m := memWrite m a v) (a := a + 1) (k := k) hw (by omega) (by omega) (by omega)
      rw [memWriteList, show a + (k + 1) = a + 1 + k by omega, this]
      simp

theorem length_memReadList (m : List Host.Cell) (a n : Nat) : (memReadList m a n).length = n := by
  induction n generalizing a with
  | zero => rfl
  | succ n ih => simp [memReadList, ih]

/-- Reading a run gives its bytes in order. -/
theorem getD_memReadList (m : List Host.Cell) (a n k : Nat) (h : k < n) :
    (memReadList m a n).getD k 0 = memRead m (a + k) := by
  induction n generalizing a k with
  | zero => omega
  | succ n ih =>
    cases k with
    | zero => simp [memReadList]
    | succ k =>
      have := ih (a + 1) k (by omega)
      simp only [memReadList, List.getD_cons_succ]
      rw [this, show a + 1 + k = a + (k + 1) by omega]

/-! ## The state's own writes -/

theorem memByte_writeMem_outside (s : State) {a b : Nat} (bs : List Byte) (h : b < a ∨ a + bs.length ≤ b) :
    (s.writeMem a bs).memByte b = s.memByte b :=
  memRead_memWriteList_outside s.mem bs h

theorem memByte_writeMem_inside {s : State} {a k : Nat} (bs : List Byte) (hm : memWf s.mem = true)
    (hlo : Config.descriptorBase ≤ a) (hhi : a + bs.length ≤ Config.tableSize) (hk : k < bs.length) :
    (s.writeMem a bs).memByte (a + k) = bs.getD k 0 :=
  memRead_memWriteList_inside bs hm hlo hhi hk

/-- A host write to any byte of table memory keeps the form. -/
theorem memWf_putHostByte {s : State} (a : BitVec 13) (v : Byte) (hm : memWf s.mem = true) :
    memWf (s.putHostByte a v).mem = true := by
  have ha : a.toNat < Config.tableSize := a.isLt
  have hw : Config.descriptorBase ≤ a.toNat → memWf (s.writeMem a.toNat [v]).mem = true := fun h =>
    memWf_memWriteList [v] hm h (by simpa using ha)
  unfold State.putHostByte
  cases h : placeOf a with
  | target => exact hm
  | channel => exact hm
  | duty => exact hm
  | _ =>
    refine hw (Nat.le_of_not_lt fun hlt => ?_)
    have hlt : a.toNat < 0x600 := hlt
    unfold placeOf at h
    simp only [hlt, if_true] at h
    split at h <;> try split at h
    all_goals simp at h

end Sys2Proof.Machine
end

