-- ==== Sys2Proof/Laws/Blocks.lean ====
section
/-!
SUPPORT. For each operation that several meanings share, what it can do, said once: which fields it may change
(its frame), what each record becomes, and the cases of its outcome.
-/

namespace Sys2Proof.Machine

open Sys2Proof

/-! ## Indices -/

theorem mem_allDuties (n : Fin 32) : n ∈ allDuties := by revert n; decide
theorem mem_allSixteen (c : Fin 16) : c ∈ allSixteen := by revert c; decide
theorem nodup_allDuties : allDuties.Nodup := by decide
theorem nodup_allSixteen : allSixteen.Nodup := by decide

/-! ## Maps over the record files -/

theorem foldl_setDuty (f : DutyRec → DutyRec) (l : List (Fin 32)) (hl : l.Nodup) (s : State) :
    let t := l.foldl (fun s n => s.setDuty n (f (s.duty n))) s
    t = { s with duties := t.duties } ∧ ∀ n, t.duty n = if n ∈ l then f (s.duty n) else s.duty n := by
  induction l generalizing s with
  | nil => exact ⟨rfl, fun n => by simp⟩
  | cons m l ih =>
    obtain ⟨hm, hl⟩ := List.nodup_cons.mp hl
    obtain ⟨h1, h2⟩ := ih hl (s.setDuty m (f (s.duty m)))
    refine ⟨by rw [List.foldl_cons, h1]; rfl, fun n => ?_⟩
    rw [List.foldl_cons, h2 n]
    by_cases hn : n = m
    · subst hn; simp [hm]
    · simp [hn]

/-- Mapping the duties changes the duty file only. -/
theorem mapDuties_frame (s : State) (f : DutyRec → DutyRec) :
    s.mapDuties f = { s with duties := (s.mapDuties f).duties } :=
  (foldl_setDuty f allDuties nodup_allDuties s).1

@[simp] theorem duty_mapDuties (s : State) (f : DutyRec → DutyRec) (n : Fin 32) :
    (s.mapDuties f).duty n = f (s.duty n) :=
  ((foldl_setDuty f allDuties nodup_allDuties s).2 n).trans (if_pos (mem_allDuties n))

/-- A fold over channels whose every step sets one channel record, by what no other record decides. -/
theorem foldl_channels (g : State → Fin 16 → State) (F : State → Fin 16 → ChannelRec)
    (hg : ∀ s c, g s c = s.setChannel c (F s c))
    (hF : ∀ s c k r, k ≠ c → F (s.setChannel k r) c = F s c) (l : List (Fin 16)) (hl : l.Nodup) (s : State) :
    let t := l.foldl g s
    t = { s with channels := t.channels } ∧ ∀ c, t.channel c = if c ∈ l then F s c else s.channel c := by
  induction l generalizing s with
  | nil => exact ⟨rfl, fun c => by simp⟩
  | cons m l ih =>
    obtain ⟨hm, hl⟩ := List.nodup_cons.mp hl
    obtain ⟨h1, h2⟩ := ih hl (g s m)
    refine ⟨by rw [List.foldl_cons, h1, hg]; rfl, fun c => ?_⟩
    rw [List.foldl_cons, h2 c, hg]
    by_cases hc : c = m
    · subst hc; simp [hm]
    · simp [hc, hF s c m _ (Ne.symm hc)]

/-- Mapping the channels changes the channel file only. -/
theorem mapChannels_frame (s : State) (f : ChannelRec → ChannelRec) :
    s.mapChannels f = { s with channels := (s.mapChannels f).channels } :=
  (foldl_channels _ (fun s c => f (s.channel c)) (fun _ _ => rfl)
    (fun s c k r h => by simp [Ne.symm h]) allSixteen nodup_allSixteen s).1

@[simp] theorem channel_mapChannels (s : State) (f : ChannelRec → ChannelRec) (c : Fin 16) :
    (s.mapChannels f).channel c = f (s.channel c) :=
  ((foldl_channels _ (fun s c => f (s.channel c)) (fun _ _ => rfl) (fun s c k r h => by simp [Ne.symm h]) allSixteen
    nodup_allSixteen s).2 c).trans (if_pos (mem_allSixteen c))

theorem foldl_setTarget (f : TargetRec → TargetRec) (l : List (Fin 16)) (hl : l.Nodup) (s : State) :
    let t := l.foldl (fun s k => s.setTarget k (f (s.target k))) s
    t = { s with targets := t.targets } ∧ ∀ k, t.target k = if k ∈ l then f (s.target k) else s.target k := by
  induction l generalizing s with
  | nil => exact ⟨rfl, fun k => by simp⟩
  | cons m l ih =>
    obtain ⟨hm, hl⟩ := List.nodup_cons.mp hl
    obtain ⟨h1, h2⟩ := ih hl (s.setTarget m (f (s.target m)))
    refine ⟨by rw [List.foldl_cons, h1]; rfl, fun k => ?_⟩
    rw [List.foldl_cons, h2 k]
    by_cases hk : k = m
    · subst hk; simp [hm]
    · simp [hk]

/-- Mapping the targets changes the target file only. -/
theorem mapTargets_frame (s : State) (f : TargetRec → TargetRec) :
    s.mapTargets f = { s with targets := (s.mapTargets f).targets } :=
  (foldl_setTarget f allSixteen nodup_allSixteen s).1

@[simp] theorem target_mapTargets (s : State) (f : TargetRec → TargetRec) (k : Fin 16) :
    (s.mapTargets f).target k = f (s.target k) :=
  ((foldl_setTarget f allSixteen nodup_allSixteen s).2 k).trans (if_pos (mem_allSixteen k))

/-! ## The due queue -/

/-- Placing a duty adds it to the entries and changes none. -/
theorem placeBySlack_perm (slack : Fin 32 → Int) (n : Fin 32) (q : List (Fin 32)) :
    (placeBySlack slack n q).Perm (n :: q) := by
  induction q with
  | nil => exact List.Perm.refl _
  | cons e q ih =>
    unfold placeBySlack
    split
    · exact (ih.cons e).trans (List.Perm.swap n e q)
    · exact List.Perm.refl _

@[simp] theorem mem_placeBySlack (slack : Fin 32 → Int) (n m : Fin 32) (q : List (Fin 32)) :
    m ∈ placeBySlack slack n q ↔ m = n ∨ m ∈ q := by
  rw [(placeBySlack_perm slack n q).mem_iff, List.mem_cons]

/-! ## Expiries and the ends of runs -/

/-- An expiry changes the duty file and the due queue only. -/
theorem expireDuty_frame (s : State) (n : Fin 32) :
    s.expireDuty n = { s with duties := (s.expireDuty n).duties, dueQueue := (s.expireDuty n).dueQueue } := by
  unfold State.expireDuty
  simp only
  split <;> (try split) <;> rfl

/-- An expiry changes no other duty. -/
theorem duty_expireDuty_ne (s : State) {n k : Fin 32} (h : k ≠ n) : (s.expireDuty n).duty k = s.duty k := by
  unfold State.expireDuty
  simp only
  split <;> (try split) <;> simp [h]

/-- One duty's part of a tick changes the duty file and the due queue only. -/
theorem tickDuty_frame (s : State) (n : Fin 32) :
    s.tickDuty n = { s with duties := (s.tickDuty n).duties, dueQueue := (s.tickDuty n).dueQueue } := by
  unfold State.tickDuty
  simp only
  split <;> (try split)
  · exact expireDuty_frame s n
  · rfl
  · rfl

theorem duty_tickDuty_ne (s : State) {n k : Fin 32} (h : k ≠ n) : (s.tickDuty n).duty k = s.duty k := by
  unfold State.tickDuty
  simp only
  split <;> (try split)
  · exact duty_expireDuty_ne s h
  · simp [h]
  · rfl

/-- A run of a tick's parts changes the duty file and the due queue only. -/
theorem foldl_tickDuty_frame (l : List (Fin 32)) (s : State) :
    let t := l.foldl State.tickDuty s
    t = { s with duties := t.duties, dueQueue := t.dueQueue } := by
  induction l generalizing s with
  | nil => rfl
  | cons n l ih =>
    simp only [List.foldl_cons]
    rw [ih (s.tickDuty n), tickDuty_frame s n]

/-- The duty's state after a run that ends counted: DUE and in the queue, or ARMED. -/
theorem settleDuty_cases (s : State) (n : Fin 32) (d : DutyRec) :
    (d.balance < 0 ∧ s.settleDuty n d = (s.setDuty n { d with state := .due }).insertDue n) ∨
      (0 ≤ d.balance ∧ s.settleDuty n d = s.setDuty n { d with state := .armed }) := by
  unfold State.settleDuty
  split
  · exact .inl ⟨‹_›, rfl⟩
  · exact .inr ⟨by omega, rfl⟩

/-- The end of a successful run changes the duty file, the due queue, the grant and the bus engine. -/
theorem runSucceeded_frame (s : State) (n : Fin 32) :
    let t := s.runSucceeded n
    t = { s with duties := t.duties, dueQueue := t.dueQueue, grant := none, engine := .gap } := by
  rcases settleDuty_cases s n (s.duty n).succeed with ⟨_, h⟩ | ⟨_, h⟩ <;> simp only [State.runSucceeded, h] <;> rfl

/-- The end of a failed run changes the duty file, the due queue, the grant and the bus engine. -/
theorem runFailed_changes (s : State) (n : Fin 32) (cause : Condition) (position : Nat) :
    let t := s.runFailed n cause position
    t.grant = none ∧ t.engine = .gap ∧ t.targets = s.targets ∧ t.channels = s.channels ∧ t.mem = s.mem ∧
      t.requests = s.requests ∧ t.inFlight = s.inFlight ∧ t.completions = s.completions ∧ t.unit = s.unit ∧
      t.cmdCode = s.cmdCode ∧ t.phase = s.phase ∧ t.busState = s.busState ∧ t.pending = s.pending := by
  unfold State.runFailed
  simp only
  split
  · simp
  · rcases settleDuty_cases s n { (s.duty n).fail cause position with held := true } with ⟨_, h⟩ | ⟨_, h⟩ <;>
      simp [h]

/-! ## Targets -/

/-- The end of a deferred TARGET_OFFLINE: nothing, or the target OFFLINE and the command finished. -/
theorem completeOffline_cases (s : State) (t : Fin 16) :
    ((s.target t).offlinePending = false ∧ s.completeOffline t = s) ∨
      ((s.target t).offlinePending = true ∧ s.completeOffline t =
        { s.setTarget t { s.target t with state := .offline, offlinePending := false } with
          unit := .ready, cmdResult := 0, commandDone := true }) := by
  unfold State.completeOffline
  split
  · exact .inr ⟨‹_›, rfl⟩
  · exact .inl ⟨eq_false_of_ne_true ‹_›, rfl⟩

/-- A retried outcome, and no other, is a failure in the target's counts. -/
theorem outcome_retried_iff (o : FrameOutcome) : o.retried = true ↔ o ≠ .ok ∧ o ≠ .nak := by cases o <;> decide

/-! ## Channels -/

/-- R84 changes channel records only, each by its own trigger and its own target. -/
theorem haltDownChannels_reads (s : State) :
    s.haltDownChannels = { s with channels := s.haltDownChannels.channels } ∧
      ∀ c, s.haltDownChannels.channel c =
        if s.hasTrigger c = true ∧ s.online (s.currentDescriptor c).target = false then
          { s.channel c with haltCause := .targetDown }.halt
        else s.channel c := by
  let F : State → Fin 16 → ChannelRec := fun s c =>
    if s.hasTrigger c = true ∧ s.online (s.currentDescriptor c).target = false then
      { s.channel c with haltCause := .targetDown }.halt
    else s.channel c
  have hg : ∀ s c, State.haltIfDown s c = s.setChannel c (F s c) := by
    intro s c
    simp only [State.haltIfDown, F]
    by_cases h : s.hasTrigger c = true ∧ s.online (s.currentDescriptor c).target = false
    · simp [h]
    · rw [if_neg (by simpa using h), if_neg h, setChannel_channel_self]
  have hF : ∀ s c k r, k ≠ c → F (s.setChannel k r) c = F s c := by
    intro s c k r h
    simp [F, State.hasTrigger, State.currentDescriptor, Ne.symm h]
  have := foldl_channels _ F hg hF allSixteen nodup_allSixteen s
  exact ⟨this.1, fun c => (this.2 c).trans (if_pos (mem_allSixteen c))⟩

/-- The end of a unit changes the channel's record, ends the grant, and finishes a pending STOP_CHANNEL. -/
theorem unitEnd_cases (s : State) (c : Fin 16) (failure : Condition) :
    let t := { s.setChannel c (s.unitRecord c failure) with grant := none, engine := .gap }
    ((s.channel c).stopPending = false ∧ s.unitEnd c failure = t) ∨
      ((s.channel c).stopPending = true ∧
        s.unitEnd c failure = { t with unit := .ready, cmdResult := 0, commandDone := true }) := by
  unfold State.unitEnd
  simp only
  split
  · exact .inr ⟨‹_›, rfl⟩
  · exact .inl ⟨eq_false_of_ne_true ‹_›, rfl⟩

/-! ## Host requests -/

/-- Disposal: nothing where the head has an ONLINE target, else the leading requests become TARGET_DOWN records. -/
theorem disposeHeads_cases (s : State) :
    (s.disposed = [] ∧ s.disposeHeads = s) ∨
      s.disposeHeads = { s with
        completions := s.completions ++ s.disposed.map (fun r => r.without .targetDown)
        requests := s.remainingRequests
        hostWait := if s.remainingRequests.isEmpty then 0 else s.hostWait } := by
  unfold State.disposeHeads
  split
  · exact .inl ⟨List.isEmpty_iff.mp ‹_›, rfl⟩
  · exact .inr rfl

/-- Disposal loses no request: those disposed of and those that remain are the queue. -/
theorem disposed_append_remaining (s : State) : s.disposed ++ s.remainingRequests = s.requests :=
  List.takeWhile_append_dropWhile

/-- The first request that remains has an ONLINE target. -/
theorem online_of_remaining (s : State) {r : Request} {rest : List Request}
    (h : s.remainingRequests = r :: rest) : s.online r.target = true := by
  unfold State.remainingRequests at h
  have hn : s.requests.dropWhile (fun r => !s.online r.target) ≠ [] := by simp [h]
  have := List.head_dropWhile_not (fun r : Request => !s.online r.target) hn
  simpa [h] using this

/-! ## The work of a grant -/

/-- A duty's transaction starts its frame, or its run fails with TARGET_DOWN. -/
theorem startTransaction_cases (s : State) (n : Fin 32) (position : Nat) :
    (s.online (s.dutyTarget n) = true ∧ s.startTransaction n position =
        s.startFrame (s.transactionFrame (s.dutyTarget n) (s.recordAt n position))) ∨
      (s.online (s.dutyTarget n) = false ∧ s.startTransaction n position = s.runFailed n .targetDown position) := by
  unfold State.startTransaction
  split
  · exact .inl ⟨‹_›, rfl⟩
  · exact .inr ⟨eq_false_of_ne_true ‹_›, rfl⟩

/-- A unit starts its next frame, or ends with TARGET_DOWN. -/
theorem startUnitFrame_cases (s : State) (c : Fin 16) (acknowledge : Bool) :
    (s.online (s.currentDescriptor c).target = true ∧ s.startUnitFrame c acknowledge =
        s.startFrame (if acknowledge then s.acknowledgeFrame c else s.unitFrame c)) ∨
      (s.online (s.currentDescriptor c).target = false ∧
        s.startUnitFrame c acknowledge = s.unitEnd c .targetDown) := by
  unfold State.startUnitFrame
  split
  · exact .inl ⟨‹_›, rfl⟩
  · exact .inr ⟨eq_false_of_ne_true ‹_›, rfl⟩

/-- The in-flight request starts its frame, or ends with TARGET_DOWN. -/
theorem startRequestFrame_cases (s : State) (r : Request) :
    (s.online r.target = true ∧ s.startRequestFrame r = s.startFrame r.frame) ∨
      (s.online r.target = false ∧ s.startRequestFrame r = s.requestEnd (r.without .targetDown)) := by
  unfold State.startRequestFrame
  split
  · exact .inl ⟨‹_›, rfl⟩
  · exact .inr ⟨eq_false_of_ne_true ‹_›, rfl⟩

/-- The work of a grant goes on by its own requester; without work the grant ends. -/
theorem startWork_cases (s : State) :
    (∃ n position, s.grant = some (.duty n position) ∧ s.startWork = s.startTransaction n position) ∨
      (∃ c acknowledge, s.grant = some (.channel c acknowledge) ∧ s.startWork = s.startUnitFrame c acknowledge) ∨
      (∃ r, s.grant = some .host ∧ s.inFlight = some r ∧ s.startWork = s.startRequestFrame r) ∨
      ((s.grant = none ∨ s.grant = some .host ∧ s.inFlight = none) ∧ s.startWork = s.endGrant) := by
  unfold State.startWork
  cases hg : s.grant with
  | none => simp
  | some g =>
    cases g with
    | duty n p => exact .inl ⟨n, p, rfl, rfl⟩
    | channel c a => exact .inr (.inl ⟨c, a, rfl, rfl⟩)
    | host => cases hi : s.inFlight <;> simp

/-- No first target check is due unless a decision has just been taken. -/
theorem firstCheck_of_ne {s : State} (h : s.engine ≠ .granted) : s.firstCheck = s := if_neg h

/-- The first target check, where it is due, lets the granted work go on. -/
theorem firstCheck_of_granted {s : State} (h : s.engine = .granted) : s.firstCheck = s.startWork := if_pos h

/-- The frame that goes out goes to the target the work names. -/
@[simp] theorem target_frameFor (s : State) (f : Frame) : (s.frameFor f).target = f.target := by
  unfold State.frameFor
  split <;> rfl

/-- A received frame changes memory only. -/
theorem storeReceived_frame (s : State) (f : Frame) (o : FrameOutcome) (data : List Sample) :
    s.storeReceived f o data = { s with mem := (s.storeReceived f o data).mem } := by
  unfold State.storeReceived
  split
  · split
    · split <;> rfl
    · rfl
    · rfl
  · rfl

/-- Without an OK READ nothing is stored. -/
theorem storeReceived_of_not {s : State} {f : Frame} {o : FrameOutcome} (data : List Sample)
    (h : f.kind ≠ .read ∨ o ≠ .ok) : s.storeReceived f o data = s := by
  unfold State.storeReceived
  rw [if_neg (by rcases h with h | h <;> simp [h])]

theorem length_receivedBytes (f : Frame) (data : List Sample) : (receivedBytes f data).length = f.length := by
  simp [receivedBytes, slotSamples]

/-- The end of an attempt: the retry gap while attempts remain, else the frame's outcome. -/
theorem attemptOver_cases (s : State) (a : Attempt) (o : FrameOutcome) (data : List Sample) :
    (o.retried = true ∧ a.count ≤ a.retryLimit.toNat ∧ s.attemptOver a o data = { s with engine := .retryGap a }) ∨
      (¬(o.retried = true ∧ a.count ≤ a.retryLimit.toNat) ∧ s.attemptOver a o data = s.frameOutcome a o data) := by
  unfold State.attemptOver
  by_cases h : o.retried = true ∧ a.count ≤ a.retryLimit.toNat
  · exact .inl ⟨h.1, h.2, by simp [h]⟩
  · exact .inr ⟨h, by rw [if_neg (by simpa using h)]⟩

/-! ## The end of an event -/

/-- An excursion starts, or nothing happens. -/
theorem startExcursion_cases (s : State) :
    (s.busState = .quiet ∧ s.callsExcursion = true ∧
        s.startExcursion = { s with busState := .waking, purpose := .excursion }) ∨
      (¬(s.busState = .quiet ∧ s.callsExcursion = true) ∧ s.startExcursion = s) := by
  unfold State.startExcursion
  split
  · exact .inl ⟨(‹_ ∧ _›).1, (‹_ ∧ _›).2, rfl⟩
  · exact .inr ⟨‹_›, rfl⟩

/-- What a decision does: nothing off a free bus; on it, the chosen work, else the broadcast due, else nothing. -/
theorem arbitrate_cases (s : State) :
    (¬(s.busFree = true ∧ s.softResetPending = false) ∧ s.arbitrate = s) ∨
      (s.busFree = true ∧ s.softResetPending = false ∧
        ((∃ k, s.choice = some k ∧ s.arbitrate = s.take k) ∨
          (s.choice = none ∧ ∃ b, s.broadcastDue = some b ∧ s.arbitrate = s.startBroadcast b) ∨
          (s.choice = none ∧ s.broadcastDue = none ∧ s.arbitrate = s))) := by
  unfold State.arbitrate
  split
  · rename_i h
    refine .inr ⟨h.1, h.2, ?_⟩
    cases hc : s.choice with
    | some k => exact .inl ⟨k, rfl, rfl⟩
    | none =>
      cases hb : s.broadcastDue with
      | some b => exact .inr (.inl ⟨rfl, b, rfl, rfl⟩)
      | none => exact .inr (.inr ⟨rfl, rfl, rfl⟩)
  · exact .inl ⟨‹_›, rfl⟩

/-- The bus is free exactly when the engine waits and no grant is in force. -/
theorem busFree_iff (s : State) : s.busFree = true ↔ s.engine = .free ∧ s.grant = none := by
  simp [State.busFree]

/-- On a bus that is not free the end of an event decides nothing. -/
theorem arbitrate_of_not_free {s : State} (h : s.engine ≠ .free) : s.arbitrate = s := by
  rcases arbitrate_cases s with ⟨_, e⟩ | ⟨hf, _⟩
  · exact e
  · exact absurd ((busFree_iff s).mp hf).1 h

/-- Where no first target check is to come, the end of an arrival is the end of any event. -/
theorem react_of_ne {s : State} (h : s.engine ≠ .granted) : s.react = s.settle := by
  have hd : ∀ u : State, u.disposeHeads.engine = u.engine := fun u => by
    rcases disposeHeads_cases u with ⟨_, e⟩ | e <;> rw [e]
  have hs : s.haltDownChannels.engine = s.engine := by rw [(haltDownChannels_reads s).1]
  unfold State.react State.settle
  rw [firstCheck_of_ne (by rw [hd, hs]; exact h)]

/-- An arrival acts on its own channel's record alone (R75). -/
theorem channel_arriveAt (s : State) (c e : Fin 16) :
    (s.arriveAt c).channel e = if e = c then (s.channel c).arrive else s.channel e := by
  simp [State.arriveAt]

/-- The channels that take the arrival of an edge are those that listen to its line, each once (R75). -/
theorem arrivalOrder_spec (s : State) (k : Fin 8) :
    (s.arrivalOrder k).Nodup ∧ ∀ c, c ∈ s.arrivalOrder k ↔ (s.channel c).listens k = true :=
  ⟨(List.perm_insertionSort _ _).nodup_iff.mpr (nodup_allSixteen.filter _),
    fun c => by simp [State.arrivalOrder, List.mem_insertionSort, mem_allSixteen]⟩

/-- No work is chosen in QUIET or WAKING. -/
theorem choice_eq_none {s : State} (h : s.busState = .quiet ∨ s.busState = .waking) : s.choice = none := by
  rcases h with h | h <;> simp [State.choice, h]

/-- A duty that is chosen is eligible, and DUE in the queue or ARMED. -/
theorem choice_duty {s : State} {n : Fin 32} (h : s.choice = some (.duty n)) :
    s.eligible n = true ∧ (n ∈ s.dueQueue ∨ (s.duty n).state = .armed) := by
  have hu : s.firstUrgent = some n → s.eligible n = true ∧ n ∈ s.dueQueue := fun e => by
    have h1 := List.find?_some e
    simp only [Bool.and_eq_true] at h1
    exact ⟨h1.1, List.mem_of_find?_eq_some e⟩
  have he : s.firstEntry = some n → s.eligible n = true ∧ n ∈ s.dueQueue := fun e =>
    ⟨List.find?_some (p := fun n => s.eligible n) e, List.mem_of_find?_eq_some e⟩
  have hf : s.firstFreshening = some n → s.eligible n = true ∧ (s.duty n).state = .armed := fun e => by
    have h1 := List.find?_some e
    simp only [State.freshens, Bool.and_eq_true, beq_iff_eq] at h1
    exact ⟨h1.1.2, h1.1.1⟩
  have hs : ∀ l : List (Fin 32), s.soonest l = some n → n ∈ l := by
    intro l
    induction l with
    | nil => simp [State.soonest]
    | cons m l ih =>
      simp only [State.soonest]
      cases hl : s.soonest l with
      | none => simp +contextual
      | some k =>
        simp only
        split
        · simp +contextual
        · intro e
          cases e
          exact List.mem_cons_of_mem _ (ih hl)
  have hp : s.pullinCandidate = some n → s.eligible n = true ∧ (s.duty n).state = .armed := fun e => by
    unfold State.pullinCandidate at e
    split at e
    · have h1 := (List.mem_filter.mp (hs _ e)).2
      simp only [State.pullsIn, Bool.and_eq_true, beq_iff_eq] at h1
      exact ⟨h1.1.2, h1.1.1⟩
    · cases e
  have hm : s.middleClasses ≠ some (.duty n) := by
    unfold State.middleClasses
    simp only
    cases s.channelCandidate <;> cases s.requests.head? <;> split <;> simp
  unfold State.choice at h
  split at h
  · unfold State.activeChoice at h
    simp only [Option.or_eq_some_iff, Option.map_eq_some_iff, Option.or_eq_none_iff] at h
    rcases h with (⟨m, e, hm'⟩ | ⟨_, e⟩) | ⟨_, ⟨m, e, hm'⟩ | ⟨_, m, e, hm'⟩⟩
    · cases hm'; exact ⟨(hu e).1, .inl (hu e).2⟩
    · exact absurd e hm
    · cases hm'; exact ⟨(he e).1, .inl (he e).2⟩
    · cases hm'; exact ⟨(hp e).1, .inr (hp e).2⟩
  · simp only [Option.or_eq_some_iff, Option.map_eq_some_iff] at h
    rcases h with ⟨m, e, hm'⟩ | ⟨_, m, e, hm'⟩
    · cases hm'; exact ⟨(he e).1, .inl (he e).2⟩
    · cases hm'; exact ⟨(hf e).1, .inr (hf e).2⟩
  · simp only [Option.map_eq_some_iff] at h
    obtain ⟨m, e, hm'⟩ := h
    cases hm'; exact ⟨(he e).1, .inl (he e).2⟩
  · cases h
  · cases h

/-! ## Time -/

/-- Marks change the timebase and the wake timer only. -/
theorem passMarks_frame (s : State) (k : Nat) :
    let t := s.passMarks k
    t = { s with
      prescaler := t.prescaler, prescalerDiv := t.prescalerDiv, tickCount := t.tickCount, ticksDue := t.ticksDue
      periodInForce := t.periodInForce, wakeTimer := t.wakeTimer } := by
  unfold State.passMarks State.countMarks State.countWake
  simp only
  split
  · rfl
  · split <;> split <;> rfl

/-- The end of the wait, or nothing: it changes the bus state, the purpose, the wake timer and BUS_STATE only. -/
theorem endWaitIfOver_cases (s : State) :
    (s.waitOver = false ∧ s.endWaitIfOver = s) ∨
      (s.waitOver = true ∧
        ((s.purpose = .excursion ∧ s.endWaitIfOver =
            { s with wakeTimer := 0, wakeWaiting := false, purpose := .none, busState := .excursion }) ∨
          (s.purpose ≠ .excursion ∧ s.endWaitIfOver = { s with
            wakeTimer := 0, wakeWaiting := false, purpose := .none, busState := .active, busStateCause := true }))) := by
  unfold State.endWaitIfOver State.endWait
  split
  · refine .inr ⟨‹_›, ?_⟩
    cases h : s.purpose <;> simp
  · exact .inl ⟨eq_false_of_ne_true ‹_›, rfl⟩

/-- The marks up to a tick: those of the rest of the period, or, where the wait of WAKING ends before its last mark,
the marks up to the wait's end, that event, and the rest. -/
theorem passToTick_cases (s : State) :
    let marks := s.periodInForce.toNat - s.tickCount
    let left := s.wakeLatched.toNat - s.wakeTimer
    (¬(s.wakeWaiting = true ∧ left < marks) ∧ s.passToTick = s.passMarks marks) ∨
      (s.wakeWaiting = true ∧ left < marks ∧
        s.passToTick = (s.passMarks left).endWait.settle.passMarks (marks - left)) := by
  unfold State.passToTick
  simp only
  split
  · exact .inr ⟨(‹_ ∧ _›).1, (‹_ ∧ _›).2, rfl⟩
  · exact .inl ⟨‹_›, rfl⟩

/-- A tick that an earlier mark has issued is taken as it is. -/
theorem takeTick_of_due {s : State} (h : 0 < s.ticksDue) : s.takeTick = { s with ticksDue := s.ticksDue - 1 } := by
  unfold State.takeTick
  rw [if_neg (by omega)]

/-! ## Commands -/

/-- A CMD_CODE write before the clear ends is ignored, one that finds the unit PENDING collides, and one that finds
it READY is taken by its owner, whose answer the unit concludes before the event ends. -/
theorem command_cases (s : State) (code : Byte) (owner : State → Reply) :
    (s.phase ≠ .running ∧ s.command code owner = s) ∨
      (s.phase = .running ∧ s.unit = .pending ∧ s.command code owner = { s with collisionCause := true }) ∨
      (s.phase = .running ∧ s.unit = .ready ∧
        s.command code owner = (owner { s with cmdCode := code }).conclude.settle) := by
  unfold State.command
  by_cases hp : s.phase = .running
  · cases hu : s.unit with
    | pending => exact .inr (.inl ⟨hp, rfl, by simp [hp]⟩)
    | ready => exact .inr (.inr ⟨hp, rfl, by simp [hp]⟩)
  · exact .inl ⟨hp, by simp [hp]⟩

/-- The unit's answer: a result and COMMAND_DONE, or PENDING with 0xFF in CMD_RESULT. -/
theorem conclude_cases (r : Reply) :
    (∃ x, r.result = some x ∧ r.conclude = { r.state with cmdResult := x.code, commandDone := true }) ∨
      (r.result = none ∧ r.conclude = { r.state with unit := .pending, cmdResult := 0xFF }) := by
  unfold Reply.conclude
  cases h : r.result with
  | some x => exact .inl ⟨x, rfl, rfl⟩
  | none => exact .inr ⟨rfl, rfl⟩

/-- A command beside the first target check is taken before it or behind it, with one free value used. -/
theorem besideCheck_cases (s : State) :
    s.besideCheck = { s with freeCount := s.freeCount + 1 } ∨
      s.besideCheck = { s with freeCount := s.freeCount + 1 }.firstCheck := by
  unfold State.besideCheck
  cases Config.commandBeforeCheck s.freeCount <;> simp

/-- An access is taken in the state as it stands, except behind a decision: then beside the first target check. -/
theorem atAccess_cases (s : State) :
    (s.engine ≠ .granted ∧ s.atAccess = s) ∨ (s.engine = .granted ∧ s.atAccess = s.besideCheck) := by
  by_cases h : s.engine = .granted
  · exact .inr ⟨h, if_pos h⟩
  · exact .inl ⟨h, if_neg h⟩

/-- TARGET_OFFLINE is taken in the state as it stands, except behind a decision for the same target: then beside the
first target check. -/
theorem atOffline_cases (s : State) :
    (¬(s.engine = .granted ∧ s.cmdOperand.toNat ≤ 15 ∧ s.workTarget = some (sixteenIndex s.cmdOperand)) ∧
        s.atOffline = s) ∨
      (s.engine = .granted ∧ s.cmdOperand.toNat ≤ 15 ∧ s.workTarget = some (sixteenIndex s.cmdOperand) ∧
        s.atOffline = s.besideCheck) := by
  unfold State.atOffline
  split
  · rename_i h
    exact .inr ⟨h.1, h.2.1, h.2.2, rfl⟩
  · exact .inl ⟨‹_›, rfl⟩

/-! ## The window -/

/-- The byte that a write through TM_DATA takes or discards, and the pointer that advances in either case. -/
theorem tmPtr_writeTableData (s : State) (v : Byte) : (s.writeTableData v).tmPtr = s.tmPtr + 1 := rfl

/-- The race with a frame on the bus changes the attempt and the count of free values only. -/
theorem raceWrite_frame (s : State) (a : Nat) (v : Byte) :
    s.raceWrite a v = { s with engine := (s.raceWrite a v).engine, freeCount := (s.raceWrite a v).freeCount } := by
  unfold State.raceWrite
  split
  · split <;> rfl
  · rfl

/-- A taken host write changes the record files or memory, and nothing else. -/
theorem putHostByte_frame (s : State) (a : BitVec 13) (v : Byte) :
    let t := s.putHostByte a v
    t = { s with targets := t.targets, channels := t.channels, duties := t.duties, mem := t.mem } := by
  unfold State.putHostByte
  simp only
  split <;> rfl

/-! ## Every command ends -/

/-- An event that cannot come leaves the state. -/
@[simp] theorem noEvent_eq (s : State) : noEvent s = .next s := rfl

end Sys2Proof.Machine
end

