-- ==== Sys2Proof/Tests/Slice0.lean ====
section
/-!
SUPPORT. Tests: one small step each, their expected values worked out by hand from the rule of the manual that the
comment names; the smoke tests of WellFormed; and for each statement of Obligations.lean with hypotheses, states and
operands that meet them, clause by clause.
-/

namespace Sys2Proof.Tests

open Sys2Proof Sys2Proof.Machine

set_option Elab.async false

/-! ## Small states -/

/-- The state after one command (every command ends in a next state). -/
def after (c : Instr) (s : State) : State :=
  match exec c s with
  | .next t => t
  | .fault f => nomatch f
  | .refused _ => s

def onlineTarget : TargetRec :=
  { TargetRec.zero with readyLimit := 10, retryLimit := 1, quarantineThreshold := 3, state := .online, inSync := true }

def dutyWith (st : DutyState) (b : Int) : DutyRec :=
  { DutyRec.zero with
    target := 2, postponeLimit := 3, interval := 5, pullinLimit := 2, listLength := 1, faultThreshold := 3
    quietPolicy := 1, notifyOnRun := 1, state := st, balance := b, remaining := 5 }

def channelWith (st : ChannelState) (pending : Byte) : ChannelRec :=
  { ChannelRec.zero with
    triggerLine := 4, state := st, remainingCount := 3, currentOffset := 0x40, currentAddress := 0x1000
    pending := pending }

def requestTo (t : Fin 16) : Request := ⟨0x21, t, false, 4, 2, 0x1800, false⟩

/-- Transaction 0: WRITE of AB CD at offset 40. Transaction 1: READ_COMPARE of one byte, 07, with pause 4.
Transaction 2: READ_CAPTURE of two bytes. Slot 0: READ units of 2 bytes from offset 40 of target 2 into 1000 on,
count 3, chained to slot 1 (invalid), acknowledged by 01 at offset 4F, notified. Slot 2: as slot 0, unit size 1,
STOP. -/
def table : List Host.Cell :=
  [(0x601, 2), (0x602, 0x22), (0x603, 0x40), (0x605, 0x10), (0x606, 3), (0x608, 1), (0x609, 1), (0x60A, 1),
    (0x60B, 0x4F), (0x60C, 1), (0x60D, 1), (0x620, 1), (0x621, 1), (0x622, 2), (0x625, 0x10), (0x626, 1),
    (0x900, 1), (0x901, 0x40), (0x902, 2), (0x904, 0xAB), (0x905, 0xCD), (0x908, 0x13), (0x909, 0x41), (0x90A, 1),
    (0x90B, 4), (0x90C, 7), (0x910, 2), (0x912, 2)]

/-- The part running with its bus free, target 2 ONLINE and in step, and the table above. -/
def base : State :=
  ({ State.reset.cleared 0 with engine := .free, mem := table, pullin := false }).setTarget 2 onlineTarget

def withOperand (v : Byte) (s : State) : State := { s with cmdOperand := v }
def withDuty (d : DutyRec) (s : State) : State := s.setDuty 4 d
def withChannel (r : ChannelRec) (s : State) : State := s.setChannel 3 r
def withTarget (st : TargetState) (s : State) : State := s.setTarget 2 { onlineTarget with state := st }
def pendingUnit (code : Byte) (s : State) : State := { s with unit := .pending, cmdCode := code, cmdResult := 0xFF }

/-- Duty 4 runs at list position 1, its WRITE frame on the bus as attempt `k`. -/
def dutyAttempt (k : Nat) (d : DutyRec) : State :=
  let u := { withDuty d base with grant := some (.duty 4 1) }
  { u with engine := .attempt (u.newAttempt (u.transactionFrame 2 0) k) }

/-- Channel 3 serves a unit, its data frame on the bus. -/
def channelAttempt (r : ChannelRec) : State :=
  let u := { withChannel r base with grant := some (.channel 3 false) }
  { u with engine := .attempt (u.newAttempt (u.unitFrame 3) 1) }

/-- The request in flight, its READ frame on the bus. -/
def requestAttempt : State :=
  let u := { base with grant := some .host, inFlight := some (requestTo 2) }
  { u with engine := .attempt (u.newAttempt (requestTo 2).frame 1) }

/-- Duty 4 has just been granted, its first target check still to come. -/
def dutyGranted : State := { withDuty (dutyWith .due (-1)) base with dueQueue := [4] }.grantDuty 4

/-- In WAKING, one microsecond before the end of the wait. -/
def wakingState (p : Purpose) : State :=
  { base with busState := .waking, purpose := p, engine := .gap, wakeWaiting := true, wakeTimer := 199 }

/-- An attempt to a HANDSHAKE target with no attempt left. -/
def lastHandshake (a : Attempt) : Attempt := { a with profile := 1, retryLimit := 0 }

theorem status_ends (a : Attempt) (status : Sample) (data : List Sample) :
    a.endsBy (.attemptEnd status data) (attemptOutcome a.frame status data) data := .inl ⟨status, rfl, rfl⟩
theorem timeout_ends (a : Attempt) (h : a.frame.kind ≠ .sync) (hp : a.profile = 1) :
    a.endsBy .readyTimeout .readyTimeout [] := .inr ⟨rfl, rfl, rfl, h, hp⟩
theorem last_of_limit {a : Attempt} (h : ¬a.count ≤ a.retryLimit.toNat) (o : FrameOutcome) : a.last o := fun x => h x.2
theorem last_of_not_retried {a : Attempt} {o : FrameOutcome} (h : o.retried = false) : a.last o :=
  fun x => by rw [h] at x; cases x.1

def ack : Instr := .attemptEnd (driven 0x5A) []
def reads (bs : List Byte) : Instr := .attemptEnd (driven 0x5A) (bs.map driven)

/-! ## WellFormed: an ill-formed term for each check -/

theorem test_wellFormed_badCommand_names_no_command :
    (Instr.badCommand 0x30).wellFormed = false ∧ (Instr.badCommand 0x03).wellFormed = true := by decide

theorem test_wellFormed_registerWrite_has_no_row_of_its_own :
    (Instr.registerWrite 0x0A 1).wellFormed = false ∧ (Instr.registerWrite 0x04 1).wellFormed = true := by decide

theorem test_wellFormed_attemptEnd_samples_at_most_sixteen :
    (Instr.attemptEnd (driven 0x5A) (List.replicate 17 (driven 0))).wellFormed = false ∧
      (Instr.attemptEnd (driven 0x5A) (List.replicate 16 (driven 0))).wellFormed = true := by decide

/-! ## Reset (R67 to R69, R147 to R149) -/

theorem test_fullReset : let t := after .fullReset { base with busDiv := 64, intEnable := 3, requests := [requestTo 2] }
    t.busDiv = 8 ∧ t.intEnable = 0 ∧ t.requests = [] ∧ t.phase = .inReset := by decide +kernel
theorem test_resetRelease : (after .resetRelease State.reset).phase = .clearing := by decide +kernel
theorem test_clearEnd : let t := after (.clearEnd 0x81) { State.reset with phase := .clearing, mem := table }
    t.status = 0x01 ∧ t.intCause = 0x0040 ∧ t.lineLevel = 0x81 ∧ t.memByte 0x904 = 0 := by decide +kernel
theorem test_accessDuringClear_reads_id_and_ignores_writes :
    (after (.accessDuringClear (.read 0x01)) State.reset).hostData = 0x63 ∧
      after (.accessDuringClear (.write 0x2E 4)) State.reset = State.reset := by decide +kernel
theorem test_resetBroadcast : (after .resetBroadcast (State.reset.cleared 0)).headerOnBus =
    [⟨0xA0, true⟩, ⟨0x00, true⟩, ⟨0x00, true⟩] := by decide +kernel
theorem test_resetBroadcastEnd :
    (after .resetBroadcastEnd { base with engine := .broadcast .reset }).engine = .gap := by decide +kernel

/-! ## Time (chapters 1, 4) -/

-- R3, R4: the 1000th mark of a period issues a tick.
theorem test_microsecondMark : let t := after .microsecondMark { base with tickCount := 999 }
    t.tickCount = 0 ∧ t.ticksDue = 1 := by decide +kernel
-- R168: the mark that brings the wake timer to the latched 200 ends the wait.
theorem test_microsecondMark_ends_the_wait : let t := after .microsecondMark (wakingState .excursion)
    t.busState = .excursion ∧ t.wakeTimer = 0 ∧ t.wakeWaiting = false ∧ t.busStateCause = false := by decide +kernel
-- R11: BALANCE 0 falls to -1, the duty is DUE, and a free bus grants it at once.
theorem test_tick_makes_a_duty_due_and_grants_it :
    let t := after .tick { withDuty { dutyWith .armed 0 with remaining := 1 } base with ticksDue := 1 }
    (t.duty 4).state = .running ∧ (t.duty 4).balance = -1 ∧ (t.duty 4).remaining = 5 := by decide +kernel
-- R168, R6: the wait ends a thousand marks before the tick, which finds the HOLD timer running again.
theorem test_tick_behind_the_end_of_the_wait :
    let t := after .tick (withDuty { dutyWith .armed 1 with quietPolicy := 0, remaining := 1 } (wakingState .exit))
    t.busState = .active ∧ (t.duty 4).balance = 0 ∧ (t.duty 4).remaining = 5 := by decide +kernel
-- R12: at -POSTPONE_LIMIT only LATE_COUNT and LATE move.
theorem test_expiry_late : let t := after (.expiry 4) (withDuty (dutyWith .running (-3)) base)
    (t.duty 4).balance = -3 ∧ (t.duty 4).lateCount = 1 ∧ t.noticeSet = [4] := by decide +kernel
-- R74, R75: a rising edge of T3 with RISING selected arrives at channel 3, and the bus grants it.
theorem test_triggerLineEdge :
    let t := after (.triggerLineEdge 3 true)
      { withChannel (channelWith .waiting 0) base with lineEdge := 0x0040 }
    (t.channel 3).pending = 1 ∧ (t.channel 3).state = .busy ∧ t.lineLevel = 0x08 := by decide +kernel
-- R75, R119: of two arrivals on a free bus the first is granted, not the one the pointer (15) would name.
theorem test_first_arrival_is_granted :
    let t := [5, 3].foldl State.takeArrival ((withChannel (channelWith .waiting 0) base).setChannel 5 (channelWith .waiting 0))
    (t.channel 5).state = .busy ∧ (t.channel 3).state = .waiting ∧ (t.channel 3).pending = 1 ∧
      t.grant = some (.channel 5 false) ∧ t.engine = .granted := by decide +kernel

/-! ## Commands -/

-- R23, R8: PHASE 0 gives REMAINING the value of INTERVAL.
theorem test_armDuty : let t := after .armDuty (withOperand 4 (withDuty (dutyWith .idle 0) base))
    (t.duty 4).state = .armed ∧ (t.duty 4).remaining = 5 ∧ t.cmdResult = 0 := by decide +kernel
theorem test_armDuty_refuses_interval_zero :
    let t := after .armDuty (withOperand 4 (withDuty { dutyWith .idle 0 with interval := 0 } base))
    (t.duty 4).state = .idle ∧ t.cmdResult = 4 ∧ t.commandDone = true := by decide +kernel
-- R25, R30.
theorem test_disarmDuty_leaves_the_queue :
    let t := after .disarmDuty
      (withOperand 4 { withDuty (dutyWith .due (-1)) base with dueQueue := [4], engine := .gap })
    t.dueQueue = [] ∧ (t.duty 4).balance = 0 ∧ (t.duty 4).state = .idle := by decide +kernel
theorem test_disarmDuty_waits_for_the_frame :
    let t := after .disarmDuty (withOperand 4 (dutyAttempt 1 (dutyWith .running (-1))))
    t.cmdResult = 0xFF ∧ (t.duty 4).disarmPending = true ∧ t.status = 0x03 := by decide +kernel
-- R26.
theorem test_runCut : let t := after .runCut { pendingUnit 0x02 (dutyAttempt 1 { dutyWith .running (-1) with
      disarmPending := true }) with engine := .interGap 1 }
    (t.duty 4).state = .idle ∧ t.cmdResult = 0 ∧ t.grant = none ∧ (t.duty 4).completedRuns = 0 := by decide +kernel
-- R79, R80.
theorem test_startChannel : let t := after .startChannel (withOperand 3 (withChannel (channelWith .halted 0) base))
    (t.channel 3).state = .waiting ∧ (t.channel 3).remainingCount = 3 ∧ (t.channel 3).currentAddress = 0x1000 ∧
      (t.channel 3).currentOffset = 0x40 := by decide +kernel
-- R96.
theorem test_stopChannel_busy : let t := after .stopChannel (withOperand 3 (channelAttempt (channelWith .busy 1)))
    (t.channel 3).stopPending = true ∧ t.unit = .pending := by decide +kernel
-- R86: an arrival at PENDING 2 of a WAITING channel.
theorem test_triggerChannel_overrun :
    let t := after .triggerChannel
      (withOperand 3 { withChannel (channelWith .waiting 2) base with busState := .quiet })
    t.cmdResult = 6 ∧ (t.channel 3).state = .halted ∧ (t.channel 3).haltCause = .overrun := by decide +kernel
-- R155.
theorem test_targetOnline : let t := after .targetOnline (withOperand 2 (withTarget .quarantined base))
    (t.target 2).state = .online ∧ (t.target 2).inSync = false ∧ t.cmdResult = 0 := by decide +kernel
-- R156, R84: the target leaves, and a waiting channel with a trigger halts in the same event.
theorem test_targetOffline :
    let t := after .targetOffline
      (withOperand 2 { withChannel (channelWith .waiting 1) base with busState := .quiet })
    (t.target 2).state = .offline ∧ (t.channel 3).haltCause = .targetDown := by decide +kernel
-- R38, R120: a target taken OFFLINE between the grant decision and the first target check fails the run at position 1.
theorem test_firstCheck_finds_the_target_down : let t := (withTarget .offline dutyGranted).settle
    (t.duty 4).lastFailure = .targetDown ∧ (t.duty 4).failPosition = 1 ∧ t.frameOnBus = none ∧ t.grant = none := by
  decide +kernel
-- R104, R107: the record is accepted and the free bus takes it at once.
theorem test_submit : let t := after .submit { base with staging := #v[0x21, 2, 0, 4, 2, 0x00, 0x18, 0] }
    t.cmdResult = 0 ∧ t.inFlight = some (requestTo 2) ∧ t.slotsFree = 7 := by decide +kernel
theorem test_submit_refuses_a_range_beyond_table_memory :
    (after .submit { base with staging := #v[0x21, 2, 0, 4, 2, 0xFF, 0x1F, 0] }).cmdResult = 2 := by decide +kernel
-- R112.
theorem test_flushHost : let t := after .flushHost { base with requests := [requestTo 2, requestTo 2], hostWait := 3 }
    t.completions = [⟨0x21, .flushed, 0, 0⟩, ⟨0x21, .flushed, 0, 0⟩] ∧ t.slotsFree = 6 ∧ t.hostWait = 0 := by
  decide +kernel
-- R164, R165: nothing is owed, so the QUIET broadcast starts in the same event.
theorem test_quietEnter : let t := after .quietEnter base
    t.busState = .draining ∧ t.engine = .broadcast .quiet ∧ t.cmdResult = 0 := by decide +kernel
-- R170, R171: a HOLD duty that is ARMED becomes stale.
theorem test_quietExit :
    let t := after .quietExit
      { withDuty { dutyWith .armed 0 with quietPolicy := 0 } base with busState := .quiet }
    t.busState = .waking ∧ t.purpose = .exit ∧ (t.duty 4).stale = true := by decide +kernel
-- R183, R115.
theorem test_softReset_at_once : let t := after .softReset { base with requests := [requestTo 2], engine := .gap }
    t.completions = [⟨0x21, .flushed, 0, 0⟩] ∧ t.cmdResult = 0 ∧ t.intCause = 0x0006 := by decide +kernel
theorem test_softReset_waits : (after .softReset requestAttempt).unit = .pending := by decide +kernel
theorem test_softResetEffects :
    let t := after .softResetEffects
      { pendingUnit 0x7F (withDuty (dutyWith .armed 0) base) with engine := .gap, lineEdge := 5 }
    (t.duty 4).state = .idle ∧ t.unit = .ready ∧ t.lineEdge = 5 := by decide +kernel
-- R48, R117, R115: the grant stands until the effects, with which the request takes its own frame's record.
theorem test_softResetEffects_behind_a_frame : let t := after (reads [1, 2]) (pendingUnit 0x7F requestAttempt)
    let u := after .softResetEffects t
    t.grant = some .host ∧ t.memByte 0x1800 = 1 ∧ u.grant = none ∧ u.completions = [⟨0x21, .none, 2, 1⟩] := by
  decide +kernel
-- R180, R181.
theorem test_badCommand : (after (.badCommand 0x03) base).cmdResult = 1 := by decide +kernel
theorem test_collision : let t := after (.collision 0x10) (pendingUnit 0x02 base)
    t.collisionCause = true ∧ t.cmdCode = 0x02 := by decide +kernel

/-! ## Host window -/

-- R57: V modulo 8192.
theorem test_tmPtrWrite : (after (.tmPtrWrite 0x32) (after (.lowByteWrite .tmPtr 0x45) base)).tmPtr = 0x1245 := by
  decide +kernel
-- R58, R59: the pointer wraps from 0x1FFF to 0x0000.
theorem test_tmDataRead : let t := after .tmDataRead { base with tmPtr := 0x1FFF, mem := [(0x1FFF, 0x99)] }
    t.hostData = 0x99 ∧ t.tmPtr = 0x0000 := by decide +kernel
-- R61, R63: INTERVAL of an ARMED duty is protected; GUARD_ADDR keeps the first address.
theorem test_tmDataWrite_guarded : let s := { withDuty (dutyWith .armed 0) base with tmPtr := 0x0282 }
    let t := after (.tmDataWrite 9) (after (.tmDataWrite 9) s)
    t.guardCause = true ∧ t.guardAddr = 0x0282 ∧ t.tmPtr = 0x0284 ∧ (t.duty 4).interval = 5 := by decide +kernel
theorem test_tmDataWrite_taken : let t := after (.tmDataWrite 9) { base with tmPtr := 0x0282 }
    (t.duty 4).interval = 9 ∧ t.tableByte 0x0282 = 9 := by decide +kernel
-- R185: the lowest member, duty 4 with RUN_FAILED and LATE, kind 1.
theorem test_noticeMemberRead : let t := after .noticeMemberRead (withChannel { channelWith .halted 0 with
      noticeHalt := true } (withDuty { dutyWith .armed 0 with noticeRunFailed := true, noticeLate := true } base))
    t.hostData = 4 ∧ t.noticeCause = 0x0106 ∧ t.noticeSet = [35] := by decide +kernel
theorem test_cplPop : (after (.cplPop 0) { base with completions := [⟨1, .none, 2, 1⟩, ⟨2, .nak, 0, 1⟩] }).completions =
    [⟨2, .nak, 0, 1⟩] := by decide +kernel
-- R186: a 1 at a level cause has no effect.
theorem test_intCauseWrite : (after (.intCauseWrite 0) (after (.lowByteWrite .intCause 0x46)
    { base with commandDone := true, completions := [⟨1, .none, 2, 1⟩] })).intCause = 0x0002 := by decide +kernel
theorem test_intEnableWrite : let t := after (.intEnableWrite 0xFF) (after (.lowByteWrite .intEnable 0xC0) base)
    t.intEnable = 0x0040 ∧ t.intLow = true := by decide +kernel
theorem test_clockMhzWrite : (after (.clockMhzWrite 32) base).clockMhz = 32 ∧ after (.clockMhzWrite 33) base = base := by
  decide +kernel
theorem test_tickPeriodWrite : (after (.tickPeriodWrite 0) (after (.lowByteWrite .tickPeriod 10) base)).tickPeriod = 10 ∧
    (after (.tickPeriodWrite 0) (after (.lowByteWrite .tickPeriod 9) base)).tickPeriod = 1000 := by decide +kernel
theorem test_wakeUsWrite : (after (.wakeUsWrite 0x0F) (after (.lowByteWrite .wakeUs 0xFF) base)).wakeUs = 4095 ∧
    (after (.wakeUsWrite 0x10) (after (.lowByteWrite .wakeUs 0) base)).wakeUs = 200 := by decide +kernel
theorem test_busDivWrite : (after (.busDivWrite 2) base).busDiv = 2 ∧ after (.busDivWrite 65) base = base := by
  decide +kernel
-- R52, R53: enabling pull-in on a free bus grants the candidate.
theorem test_pullinWrite : let t := after (.pullinWrite 0xFF) (withDuty (dutyWith .armed 0) base)
    t.pullin = true ∧ t.grant = some (.duty 4 1) := by decide +kernel
-- R178: with an empty hold the high byte joins the register's own low byte.
theorem test_lineEdgeWrite : (after (.lineEdgeWrite 0x12) { base with lineEdge := 0xAB34 }).lineEdge = 0x1234 := by
  decide +kernel
theorem test_lowByteWrite_keeps_the_register : (after (.lowByteWrite .lineEdge 0x77) base).lineEdge = 0 := by
  decide +kernel
-- R177: the high byte is that of the value the low-byte read saw.
theorem test_lowByteRead_then_highByteRead : let t := after (.lowByteRead .tickPeriod) base
    t.hostData = 0xE8 ∧ (after (.highByteRead .tickPeriod) { t with tickPeriod := 10 }).hostData = 0x03 := by
  decide +kernel
theorem test_registerWrite : (after (.registerWrite 0x14 7) base).staging[4] = 7 ∧
    after (.registerWrite 0x1D 7) base = base := by decide +kernel

/-! ## Bus -/

-- R119, R105: the free bus takes the request at the head.
theorem test_gapEnd : (after .gapEnd { base with engine := .gap, requests := [requestTo 2] }).grant = some .host := by
  decide +kernel
-- R38: the run fails with TARGET_DOWN at its position, CONSEC_FAILS stands, and the duty is held (R47).
theorem test_interFrameGapEnd_target_down :
    let t := after .interFrameGapEnd
      { withTarget .quarantined (withDuty { dutyWith .running (-1) with listLength := 2 } base) with
        grant := some (.duty 4 2), engine := .interGap 5 }
    (t.duty 4).lastFailure = .targetDown ∧ (t.duty 4).failPosition = 2 ∧ (t.duty 4).consecFails = 0 ∧
      (t.duty 4).held = true ∧ t.dueQueue = [4] := by decide +kernel
-- R140, R141: the last attempt's timeout is the frame's outcome.
theorem test_readyTimeout :
    let a := requestAttempt.newAttempt (requestTo 2).frame 2
    (after .readyTimeout { requestAttempt with engine := .attempt { a with profile := 1 } }).completions =
      [⟨0x21, .readyTimeout, 0, 2⟩] := by decide +kernel
-- R106, R109, R153 (log entry 23): the quarantining request's own record, then that of the head it takes down.
theorem test_attemptEnd_quarantine_order :
    let s := { requestAttempt.setTarget 2 { onlineTarget with consecFails := 2, retryLimit := 0 } with
      engine := .attempt (lastHandshake (requestAttempt.newAttempt (requestTo 2).frame 1))
      requests := [{ requestTo 2 with tag := 9 }] }
    let t := after (.attemptEnd idleSample []) s
    (t.target 2).state = .quarantined ∧ t.completions.map Completion.status = [.noResponse, .targetDown] ∧
      t.completions.map Completion.tag = [0x21, 9] := by decide +kernel
-- R45, R48.
theorem test_attemptEnd_run_succeeds : let t := after ack (dutyAttempt 1 (dutyWith .running (-1)))
    (t.duty 4).balance = 0 ∧ (t.duty 4).state = .armed ∧ (t.duty 4).completedRuns = 1 ∧ t.engine = .gap ∧
      (t.target 2).seq = true ∧ t.noticeSet = [4] := by decide +kernel
-- R66, R91, R92: the data frame's bytes are stored and the acknowledge frame is next.
theorem test_attemptEnd_unit_read : let t := after (reads [0x12, 0x34]) (channelAttempt (channelWith .busy 1))
    t.memByte 0x1000 = 0x12 ∧ t.memByte 0x1001 = 0x34 ∧ t.grant = some (.channel 3 true) := by decide +kernel
-- R141: a retried outcome with attempts left, then the next attempt.
theorem test_retryGapEnd : let t := after .retryGapEnd (after (.attemptEnd idleSample []) requestAttempt)
    t.engine = .attempt (requestAttempt.newAttempt (requestTo 2).frame 2) := by decide +kernel
/-- The phases of a run of bus cycles, with the bytes the part drives. -/
def shape (l : List BusCycle) : List (Phase × Option Byte) := l.map (fun x => (x.phase, x.part.map (fun y => y.sd)))
-- R133: chapter 7's four-byte WRITE to target 2 with SETTLE 2 and PACE 1.
theorem test_run_write :
    let a := { base.newAttempt ⟨.write, 2, 0x30, 4, .none⟩ 1 with settleCycles := 2, pace := 1, sent := [1, 2, 3, 4] }
    shape (a.run (a.frame.header false) (fun _ => 0)) =
      [(.header, some 0x12), (.header, some 0x30), (.header, some 0x03), (.settle, none), (.settle, none),
        (.data, some 1), (.pace, none), (.data, some 2), (.pace, none), (.data, some 3), (.pace, none),
        (.data, some 4), (.turnaround, none), (.status, none)] := by decide +kernel
-- R134, R139: chapter 7's two-byte READ with three wait cycles before byte 0; R140: its ready timeout of 9 cycles.
theorem test_run_read_and_timeout :
    let a := { base.newAttempt ⟨.read, 7, 0, 2, .none⟩ 1 with settleCycles := 1, profile := 1, readyLimit := 8 }
    let b := { a with frame := ⟨.write, 11, 0, 2, .none⟩, readyLimit := 4 }
    (a.busCycles (a.frame.header false) (fun k => if k = 0 then 3 else 0)).map BusCycle.phase =
        [.header, .header, .header, .turnaround, .settle, .wait, .wait, .wait, .data, .data, .status] ∧
      (b.busCycles (b.frame.header false) (fun _ => 5)).map BusCycle.phase =
        [.header, .header, .header, .settle, .wait, .wait, .wait, .wait, .wait] := by decide +kernel
-- R139: a WRITE's byte is driven through every cycle of its slot, and through the cycles of a ready timeout.
theorem test_run_waits_driven :
    let a := { base.newAttempt ⟨.write, 11, 0, 2, .none⟩ 1 with profile := 1, readyLimit := 2, sent := [1, 2] }
    (shape (a.busCycles (a.frame.header false) (fun k => k + 1))).drop 3 =
        [(.wait, some 1), (.data, some 1), (.wait, some 2), (.wait, some 2), (.data, some 2), (.turnaround, none),
          (.status, none)] ∧
      (shape (a.busCycles (a.frame.header false) (fun _ => 3))).drop 3 =
        [(.wait, some 1), (.wait, some 1), (.wait, some 1)] := by decide +kernel
-- R131, R132, R71: an attempt reads PROFILE, SETTLE, PACE and the limits from the record of its target, and S for its SEQ.
theorem test_attempt_reads_the_target_record :
    let s := base.setTarget 2 { onlineTarget with
      profile := 1, settleCycles := 1, pace := 2, readyLimit := 3, retryLimit := 2, seq := true }
    let a := s.newAttempt ⟨.write, 2, 0x30, 2, .area 0x1000⟩ 1
    a.readyLimit = 3 ∧ a.retryLimit = 2 ∧
      { s with engine := .attempt a }.headerOnBus.map Sample.sd = [0x12, 0x30, 0x11] ∧
      ({ s with engine := .attempt a }.cyclesOnBus (fun k => k)).map BusCycle.phase =
        [.header, .header, .header, .settle, .data, .pace, .pace, .wait, .data, .turnaround, .status] := by
  decide +kernel
-- R136, R138: SWAIT# held low lengthens no slot of a FIXED target and times nothing out.
theorem test_run_fixed :
    let a := { base.newAttempt ⟨.read, 7, 0, 2, .none⟩ 1 with settleCycles := 1, profile := 0, readyLimit := 4 }
    (a.busCycles (a.frame.header false) (fun _ => 9)).map BusCycle.phase =
      [.header, .header, .header, .turnaround, .settle, .data, .data, .status] := by decide +kernel
-- R137, R139: the attempts of chapter 7's examples, 14 (FIXED), 11, 9 (a ready timeout) and 8 bus cycles; W is 0 for FIXED.
theorem test_cycles :
    let a := { base.newAttempt ⟨.write, 2, 0, 2, .none⟩ 1 with settleCycles := 1, profile := 1, readyLimit := 4 }
    let low := fun k => if k = 0 then 3 else 0
    { a with settleCycles := 2, pace := 1, profile := 0, frame := ⟨.write, 2, 0, 4, .none⟩ }.cycles low = 14 ∧
      a.cycles low = 11 ∧ a.timeoutCycles low 0 = 9 ∧ a.cycles (fun _ => 0) = 8 ∧
      { a with profile := 0 }.cycles low = 8 := by decide +kernel

/-! ## Quiet operation (chapter 9) -/

-- R166, R167: QUIET, and at once an excursion for an urgent WAKE entry.
theorem test_quietBroadcastEnd_starts_an_excursion :
    let t := after .quietBroadcastEnd
      { withDuty (dutyWith .due (-3)) base with dueQueue := [4], busState := .draining, engine := .broadcast .quiet }
    t.busState = .waking ∧ t.purpose = .excursion ∧ t.busStateCause = true := by decide +kernel
theorem test_wakeBroadcastEnd :
    let t := after .wakeBroadcastEnd
      { base with busState := .waking, purpose := .exit, engine := .broadcast .wake, wakeUs := 500 }
    t.wakeLatched = 500 ∧ t.wakeWaiting = true ∧ t.engine = .gap := by decide +kernel
theorem test_wakeWaitEnd :
    let t := after .wakeWaitEnd
      { base with busState := .waking, purpose := .exit, engine := .gap, wakeWaiting := true, wakeTimer := 200 }
    t.busState = .active ∧ t.purpose = .none ∧ t.busStateCause = true := by decide +kernel

/-! ## The step -/

theorem test_step_takes_the_front : step { base with pending := [.busDivWrite 4, .busDivWrite 5] } =
    .next { base with busDiv := 4, pending := [.busDivWrite 5] } := rfl
-- R38, R39: by the next chip clock the granted duty's first frame is on the bus.
theorem test_step_lets_the_granted_frame_start :
    (match step dutyGranted with | .next t => t.frameOnBus | _ => none) = some (dutyGranted.transactionFrame 2 0) := by
  decide +kernel
theorem test_decodeTableWord : decodeTableWord 8 0 = none := rfl

/-! ## Witnesses: states and operands that meet the hypotheses of each statement, clause by clause -/

theorem witness_StepRunsTheFrontCommand : { base with pending := [.gapEnd] }.pending = .gapEnd :: [] := rfl

theorem witness_ClocksMarksAndTicksAreCounted :
    (State.reset.pending = [] ∧ State.reset.phase ≠ .running) ∧
    (base.pending = [] ∧ base.phase = .running ∧ base.prescaler + 1 < base.prescalerDiv.toNat) ∧
    (let s := { base with prescaler := 15 }; s.prescalerDiv.toNat ≤ s.prescaler + 1) ∧
    (base.tickCount + 1 < base.periodInForce.toNat ∧ base.wakeWaiting = false) ∧
    (let s := { base with tickCount := 999 }; s.tickCount + 1 = s.periodInForce.toNat) ∧
    (let s := { wakingState .exit with wakeTimer := 198 };
      s.phase = .running ∧ s.wakeWaiting = true ∧ s.wakeTimer + 1 < s.wakeLatched.toNat) ∧
    (let s := wakingState .excursion;
      s.wakeWaiting = true ∧ s.wakeLatched.toNat ≤ s.wakeTimer + 1 ∧ s.purpose = .excursion) ∧
    (wakingState .exit).purpose ≠ .excursion := by
  decide +kernel

theorem witness_WindowIsClosedUntilTheClearEnds :
    State.reset.phase ≠ .running ∧ State.reset.intEnable = 0 := by decide +kernel

theorem witness_ReleaseClearAndResetBroadcast :
    State.reset.phase = .inReset ∧ base.phase ≠ .inReset ∧ { State.reset with phase := .clearing }.phase = .clearing ∧
      State.reset.phase ≠ .clearing ∧ (State.reset.cleared 0).engine = .resetWait ∧
      { base with engine := .broadcast .reset }.engine = .broadcast .reset ∧ base.engine ≠ .resetWait ∧
      base.engine ≠ .broadcast .reset := by decide +kernel

theorem witness_TickActsOnEveryDutyAndTheQueue :
    (base.phase = .running ∧ 0 < { base with ticksDue := 1 }.ticksDue) ∧
    (base.ticksDue = 0 ∧ base.tickCount < base.periodInForce.toNat ∧ base.wakeWaiting = false) ∧
    (let s := { wakingState .exit with tickCount := 999 };
      s.ticksDue = 0 ∧ s.wakeWaiting = true ∧
        s.periodInForce.toNat - s.tickCount ≤ s.wakeLatched.toNat - s.wakeTimer) ∧
    (let s := wakingState .exit;
      s.ticksDue = 0 ∧ s.wakeWaiting = true ∧ 0 < s.wakeLatched.toNat - s.wakeTimer ∧
        s.wakeLatched.toNat - s.wakeTimer < s.periodInForce.toNat - s.tickCount ∧ s.purpose ≠ .excursion ∧
        (wakingState .excursion).purpose = .excursion) ∧
    (dutyWith .idle 0).active = false ∧
    { dutyWith .armed 0 with quietPolicy := 0 }.paused .excursion = true ∧
    ((dutyWith .armed 1).active = true ∧ (dutyWith .armed 1).paused .active = false ∧
      1 < { dutyWith .armed 1 with remaining := 2 }.remaining.toNat) ∧
    ({ dutyWith .armed 1 with remaining := 1 }.remaining = 1 ∧ 1 ≤ (dutyWith .armed 1).balance) ∧
    ((dutyWith .armed 0).balance ≤ 0 ∧ (dutyWith .due (-3)).balance = -((dutyWith .due (-3)).postponeLimit.toNat : Int)) ∧
    ((dutyWith .running (-2)).state ≠ .armed ∧
      (dutyWith .running (-2)).balance ≠ -((dutyWith .running (-2)).postponeLimit.toNat : Int)) := by decide +kernel

theorem witness_ExpiryActsByStateAndBalance :
    base.phase = .running ∧ (∀ st : Bool, (dutyWith (if st then .due else .running) (-3)).paused base.busState = false) ∧
    (dutyWith .due (-3)).balance = -((dutyWith .due (-3)).postponeLimit.toNat : Int) ∧
    1 ≤ (dutyWith .armed 1).balance ∧ (dutyWith .armed 0).balance = 0 ∧
    ((withDuty (dutyWith .due (-2)) base).duty 4).state = .due ∧
    (dutyWith .due (-2)).balance ≠ -((dutyWith .due (-2)).postponeLimit.toNat : Int) ∧
    (dutyWith .running 2).state = .running ∧ (dutyWith .faulted 0).state = .faulted := by decide +kernel

theorem witness_PlacementFollowsSlack :
    let slack := fun n : Fin 32 => if n = 1 then (0 : Int) else 2
    [(1 : Fin 32), 2, 3].Pairwise (fun a b => slack a ≤ slack b) ∧ 0 ≤ (base.duty 0).balance ∧
      ((withDuty (dutyWith .due (-3)) base).duty 4).balance < 0 := by decide +kernel

theorem witness_EdgeArrivesAtListeningChannels :
    base.phase = .running ∧ base.lineLevel.getLsbD 7 = false ∧ base.lineLevel.getLsbD 7 ≠ true ∧
      (channelWith .waiting 0).triggerLine.toNat = (3 : Fin 8).val + 1 ∧
      (0x0040 : Half).getLsbD (2 * (3 : Fin 8).val + if true then 0 else 1) = true ∧
    (let s := withChannel (channelWith .waiting 0) base;
      let r := (s.channel 3).arrive
      s.engine ≠ .granted ∧ s.react = s ∧ (r.state = .waiting ∧ r.pending ≠ 0) ∧
        s.online (s.currentDescriptor 3).target = true ∧
        s.engine = .free ∧ s.grant = none ∧ s.softResetPending = false ∧ s.busState = .active) ∧
    (let s := { withChannel (channelWith .waiting 0) base with engine := .gap };
      s.react = s ∧ s.engine ≠ .free ∧ s.online (s.currentDescriptor 3).target = true) ∧
    (let s := withTarget .offline (withChannel (channelWith .waiting 0) base);
      s.react = s ∧ s.online (s.currentDescriptor 3).target = false) ∧
    (let s := withChannel (channelWith .idle 0) base;
      s.react = s ∧ (s.channel 3).arrive.state ≠ .waiting) := by decide +kernel

theorem witness_ArrivalCountsOrOverruns :
    ((channelWith .idle 0).state ≠ .waiting ∧ (channelWith .idle 0).state ≠ .busy) ∧
    ((channelWith .busy 1).state = .busy ∧ (channelWith .busy 1).pending.toNat ≤ 1) ∧
    ((channelWith .waiting 2).state = .waiting ∧ 2 ≤ (channelWith .waiting 2).pending.toNat) ∧
    ((channelWith .busy 2).state = .busy ∧ 2 ≤ (channelWith .busy 2).pending.toNat) := by decide

theorem witness_ArmDutyFollowsItsOrder :
    (base.phase = .running ∧ base.unit = .ready) ∧ 31 < (withOperand 32 base).cmdOperand.toNat ∧
    (let s := withOperand 31 (base.setDuty 31 (dutyWith .due (-1)));
      s.cmdOperand.toNat ≤ 31 ∧ (s.duty (dutyIndex s.cmdOperand)).state = .due) ∧
    (let s := withOperand 0 base; (s.duty (dutyIndex s.cmdOperand)).state = .idle ∧ s.dutyValid 0 = false) ∧
    (let s := withOperand 4 (withDuty (dutyWith .faulted 0) base);
      (s.duty (dutyIndex s.cmdOperand)).state = .faulted ∧ s.dutyValid (dutyIndex s.cmdOperand) = true) := by
  decide +kernel
theorem witness_DescriptorsAreReadAndCheckedAsListed :
    (base.descriptor 0).valid = true ∧ (base.descriptor 2).valid = true ∧ (base.descriptor 1).valid = false ∧
      base.transactionKind 0 = .write ∧ base.transactionKind 1 = .readCompare ∧ base.transactionKind 2 = .readCapture := by
  decide +kernel

theorem witness_RecordBytesLieAsListed : 0x0600 ≤ (0x0600 : BitVec 13).toNat ∧ 0x0600 ≤ (0x1FFF : BitVec 13).toNat := by
  decide

theorem witness_DisarmDutyActsByState :
    (base.phase = .running ∧ base.unit = .ready ∧ base.engine ≠ .granted ∧ 31 < (withOperand 32 base).cmdOperand.toNat) ∧
    (let s := withOperand 31 base; s.cmdOperand.toNat ≤ 31 ∧ (s.duty (dutyIndex s.cmdOperand)).state = .idle) ∧
    (let s := withOperand 4 (withDuty (dutyWith .faulted 0) base); (s.duty (dutyIndex s.cmdOperand)).state = .faulted) ∧
    (let s := withOperand 4 (withDuty (dutyWith .due (-1)) base); (s.duty (dutyIndex s.cmdOperand)).state = .due) ∧
    (let s := withOperand 4 (dutyAttempt 1 (dutyWith .running 0));
      s.phase = .running ∧ s.unit = .ready ∧ s.engine ≠ .granted ∧ (s.duty (dutyIndex s.cmdOperand)).state = .running ∧
        s.grant = some (.duty (dutyIndex s.cmdOperand) 1) ∧ s.frameOnBus ≠ none) := by decide +kernel

theorem witness_CutEndsTheRunUncounted :
    (let s := { dutyAttempt 1 { dutyWith .running 0 with disarmPending := true } with engine := .interGap 1 };
      s.grant = some (.duty 4 1) ∧ s.frameOnBus = none ∧ (s.duty 4).disarmPending = true ∧ s.engine = .interGap 1 ∧
        s.softResetPending = false) ∧
    (let s := { withOperand 4 (dutyAttempt 1 (dutyWith .running 0)) with engine := .interGap 1 };
      s.grant = some (.duty 4 1) ∧ s.frameOnBus = none ∧ (s.duty 4).disarmPending = false ∧ s.phase = .running ∧
        s.engine ≠ .granted ∧ s.unit = .ready ∧ (s.duty 4).state = .running ∧
        s.cmdOperand.toNat = (4 : Fin 32).val) ∧
    (let s := dutyAttempt 1 { dutyWith .running 0 with disarmPending := true };
      let a := s.newAttempt (s.transactionFrame 2 0) 1
      s.grant = some (.duty 4 1) ∧ s.frameOnBus ≠ none ∧ s.engine = .attempt a ∧ (s.duty 4).disarmPending = true ∧
        s.softResetPending = false ∧ a.endsBy (.attemptEnd (driven 0x3C) []) .nak [] ∧ a.last .nak) :=
  ⟨by decide +kernel, by decide +kernel, by decide +kernel, by decide +kernel, by decide +kernel, by decide +kernel,
    by decide +kernel, status_ends _ _ _, last_of_not_retried rfl⟩

theorem witness_StartChannelFollowsItsOrder :
    (base.phase = .running ∧ base.unit = .ready ∧ 15 < (withOperand 16 base).cmdOperand.toNat) ∧
    (let s := withOperand 15 (base.setChannel 15 (channelWith .busy 0));
      s.cmdOperand.toNat ≤ 15 ∧ (s.channel (sixteenIndex s.cmdOperand)).state = .busy) ∧
    (let s := withOperand 3 (withChannel { channelWith .done 0 with firstSlot := 48 } base);
      (s.channel (sixteenIndex s.cmdOperand)).state = .done ∧ 47 < (s.channel (sixteenIndex s.cmdOperand)).firstSlot.toNat) ∧
    (let s := withOperand 3 (withChannel { channelWith .idle 0 with firstSlot := 47 } base);
      (s.descriptor (s.channel (sixteenIndex s.cmdOperand)).firstSlot.toNat).valid = false) ∧
    (let s := withOperand 3 (withChannel (channelWith .halted 0) base);
      (s.channel (sixteenIndex s.cmdOperand)).state = .halted ∧
        (s.channel (sixteenIndex s.cmdOperand)).firstSlot.toNat ≤ 47 ∧
        (s.descriptor (s.channel (sixteenIndex s.cmdOperand)).firstSlot.toNat).valid = true) := by decide +kernel

theorem witness_StopAndTriggerChannelActByState :
    (base.phase = .running ∧ base.unit = .ready ∧ 15 < (withOperand 16 base).cmdOperand.toNat) ∧
    (let s := withOperand 3 (withChannel (channelWith .waiting 1) base);
      s.cmdOperand.toNat ≤ 15 ∧ (s.channel (sixteenIndex s.cmdOperand)).state = .waiting ∧
        (s.channel (sixteenIndex s.cmdOperand)).pending.toNat ≤ 1) ∧
    (let s := withOperand 3 (withChannel (channelWith .busy 2) base);
      (s.channel (sixteenIndex s.cmdOperand)).state = .busy ∧ 2 ≤ (s.channel (sixteenIndex s.cmdOperand)).pending.toNat) ∧
    (let s := withOperand 15 base;
      s.cmdOperand.toNat ≤ 15 ∧ (s.channel (sixteenIndex s.cmdOperand)).state = .idle) := by decide +kernel

theorem witness_TargetOnlineFollowsItsOrder :
    (base.phase = .running ∧ base.unit = .ready ∧ 15 < (withOperand 16 base).cmdOperand.toNat) ∧
    (let s := withOperand 2 base; s.cmdOperand.toNat ≤ 15 ∧ (s.target (sixteenIndex s.cmdOperand)).state = .online) ∧
    (let s := withOperand 15 base;
      (s.target (sixteenIndex s.cmdOperand)).state ≠ .online ∧ ¬1 ≤ (s.target (sixteenIndex s.cmdOperand)).readyLimit.toNat) ∧
    (let s := withOperand 2 (withTarget .quarantined base);
      let r := s.target (sixteenIndex s.cmdOperand)
      r.state ≠ .online ∧ (r.profile = 0 ∨ r.profile = 1) ∧ r.settleCycles.toNat ≤ 15 ∧ r.pace.toNat ≤ 15 ∧
        1 ≤ r.readyLimit.toNat ∧ r.retryLimit.toNat ≤ 3 ∧ 1 ≤ r.quarantineThreshold.toNat ∧
        r.quarantineThreshold.toNat ≤ 15) := by decide +kernel

theorem witness_TargetOfflineWaitsForItsFrame :
    (base.phase = .running ∧ base.unit = .ready ∧ 15 < (withOperand 16 base).cmdOperand.toNat) ∧
    (let s := withOperand 15 base;
      s.cmdOperand.toNat ≤ 15 ∧ s.engine ≠ .granted ∧ (s.target (sixteenIndex s.cmdOperand)).state = .offline) ∧
    (let s := withOperand 2 base; (s.target (sixteenIndex s.cmdOperand)).state = .online ∧ s.frameOnBus = none) ∧
    (let s := withOperand 2 requestAttempt;
      (s.target (sixteenIndex s.cmdOperand)).state = .online ∧ s.frameOnBus = some (requestTo 2).frame ∧
        (requestTo 2).frame.target = sixteenIndex s.cmdOperand) ∧
    (let s := withOperand 2 dutyGranted;
      s.phase = .running ∧ s.unit = .ready ∧ s.cmdOperand.toNat ≤ 15 ∧ s.engine = .granted ∧
        s.workTarget = some (sixteenIndex s.cmdOperand) ∧ s.online 2 = true ∧ s.grant = some (.duty 4 1)) ∧
    (let s := withOperand 2 ((withChannel (channelWith .waiting 1) base).grantChannel 3);
      s.engine = .granted ∧ s.workTarget = some 2 ∧ s.grant = some (.channel 3 false) ∧ (s.channel 3).state = .busy) ∧
    (let s := withOperand 2 ({ base with requests := [requestTo 2] }.grantHost (requestTo 2));
      s.engine = .granted ∧ s.workTarget = some 2 ∧ s.grant = some .host ∧ s.inFlight = some (requestTo 2)) := by
  decide +kernel

theorem witness_SubmitChecksAndAppends :
    let s := { base with staging := #v[0x21, 15, 1, 4, 16, 0xF0, 0x1F, 0] }
    let address := (s.staging[6] ++ s.staging[5]).toNat
    (s.phase = .running ∧ s.unit = .ready ∧ ¬1 ≤ base.staging[4].toNat) ∧
    (s.staging[1].toNat ≤ 15 ∧ (s.staging[2] = 0 ∨ s.staging[2] = 1) ∧ 1 ≤ s.staging[4].toNat ∧
      s.staging[4].toNat ≤ 16 ∧ 0x0D00 ≤ address ∧ address + s.staging[4].toNat ≤ 0x2000) ∧
    s.slotsFree ≠ 0 ∧ { s with requests := List.replicate 8 (requestTo 2) }.slotsFree = 0 := by decide +kernel

theorem witness_FlushAndPopMoveTheQueues :
    base.phase = .running ∧ base.unit = .ready ∧ base.completions = [] ∧
      { base with completions := List.replicate 8 ⟨1, .none, 2, 1⟩ }.slotsHeld ≤ 8 := by decide +kernel

theorem witness_QuietEnterAndExitFollowTheirRules :
    (base.phase = .running ∧ base.unit = .ready ∧ base.busState = .active) ∧
    (let s := { base with busState := .draining }; s.busState ≠ .active ∧ s.engine ≠ .broadcast .quiet) ∧
    (let s := { base with busState := .excursion, engine := .broadcast .quiet };
      s.engine = .broadcast .quiet ∧ s.purpose ≠ .exit) ∧
    (let s := { base with busState := .draining, engine := .broadcast .quiet, purpose := .exit };
      s.engine = .broadcast .quiet ∧ s.purpose = .exit) ∧
    { base with busState := .quiet }.busState = .quiet ∧
    (let s := { base with busState := .waking, purpose := .excursion }; s.busState = .waking ∧ s.purpose ≠ .exit) ∧
    (let s := { base with busState := .excursion }; s.busState = .excursion ∧ s.engine ≠ .broadcast .quiet) := by
  decide +kernel

theorem witness_SoftResetWaitsForTheBus :
    (requestAttempt.phase = .running ∧ requestAttempt.unit = .ready ∧ requestAttempt.frameOnBus ≠ none) ∧
    (base.unit = .ready ∧ base.engine ≠ .granted ∧ base.frameOnBus = none ∧ base.broadcastOnBus = none) ∧
    (dutyGranted.phase = .running ∧ dutyGranted.unit = .ready ∧ dutyGranted.engine = .granted) ∧
    (let s := pendingUnit 0x7F { base with engine := .interGap 1 };
      s.unit = .pending ∧ s.cmdCode = 0x7F ∧ s.frameOnBus = none ∧ s.broadcastOnBus = none ∧ s.engine = .interGap 1) ∧
    base.unit ≠ .pending ∧
    (let s := pendingUnit 0x7F requestAttempt;
      let a := s.newAttempt (requestTo 2).frame 1
      s.unit = .pending ∧ s.cmdCode = 0x7F ∧ s.engine = .attempt a ∧ s.grant = some .host ∧
        s.inFlight = some (requestTo 2) ∧ a.endsBy (reads [1, 2]) .ok [driven 1, driven 2] ∧ a.last .ok ∧
        a.frame.kind ≠ .sync) ∧
    (let s := pendingUnit 0x7F (dutyAttempt 1 (dutyWith .running 0));
      let a := s.newAttempt (s.transactionFrame 2 0) 1
      s.engine = .attempt a ∧ s.grant ≠ some .host ∧ a.endsBy (.attemptEnd (driven 0x3C) []) .nak [] ∧ a.last .nak) ∧
    (syncFrame 2).kind = .sync ∧ base.inFlight = none :=
  ⟨by decide +kernel, by decide +kernel, by decide +kernel, by decide +kernel, by decide +kernel,
    ⟨by decide +kernel, by decide +kernel, by decide +kernel, by decide +kernel, by decide +kernel,
      status_ends _ _ _, last_of_not_retried rfl, by decide +kernel⟩,
    ⟨by decide +kernel, by decide +kernel, status_ends _ _ _, last_of_not_retried rfl⟩, rfl, rfl⟩

theorem witness_SoftResetEffectsOfEveryBlock :
    base.busState = .active ∧ { base with busState := .excursion }.busState = .excursion ∧
      { base with busState := .waking }.busState = .waking ∧ dutyGranted.engine = .granted ∧
      { base with engine := .interGap 2 }.engine = .interGap 2 ∧ base.engine ≠ .granted ∧
      ∀ k, base.engine ≠ .interGap k := by
  refine ⟨rfl, rfl, rfl, rfl, rfl, by decide, fun k h => by cases h⟩

theorem witness_UnknownAndCollidingCodes :
    base.phase = .running ∧ (0x80 : Byte) ∉ commandCodes ∧ base.unit = .ready ∧
      (pendingUnit 0x02 base).unit = .pending ∧ (pendingUnit 0x02 base).phase = .running := by decide +kernel

theorem witness_SettingsTakeValuesInRange :
    base.phase = .running ∧ (8 ≤ (32 : Byte).toNat ∧ (32 : Byte).toNat ≤ 32) ∧ 32 < (33 : Byte).toNat ∧
    (2 ≤ (64 : Byte).toNat ∧ (64 : Byte).toNat ≤ 64) ∧ (1 : Byte).toNat < 2 ∧ base.engine ≠ .granted ∧
    (dutyGranted.phase = .running ∧ dutyGranted.engine = .granted) ∧
    (let held := fun (s : State) (v : Byte) w => v ++ (s.hold w).getD (lowByte (s.half (holdRegister w)));
      10 ≤ (held (after (.lowByteWrite .tickPeriod 10) base) 0 .tickPeriod).toNat ∧
        (held (after (.lowByteWrite .tickPeriod 9) base) 0 .tickPeriod).toNat < 10 ∧
        (held (after (.lowByteWrite .wakeUs 0xFF) base) 0x0F .wakeUs).toNat = 4095 ∧
        held (after (.lowByteWrite .wakeUs 0) base) 0 .wakeUs = 0 ∧
        4095 < (held (after (.lowByteWrite .wakeUs 0) base) 0x10 .wakeUs).toNat) := by decide +kernel

theorem witness_InterruptCausesEnablesAndLine : base.phase = .running ∧ (0x7F : Byte).getLsbD 6 = true := by decide +kernel

theorem witness_SixteenBitAccessIsWhole :
    base.phase = .running ∧ base.latch .intCause = none ∧
      (let t := after (.lowByteRead .intCause) base;
        let u := { t with commandDone := true }
        u.phase = .running ∧ u.latch .intCause = t.latch .intCause) := by decide +kernel

theorem witness_PlainRegisterReadsAndWrites :
    base.phase = .running ∧ base.completions = [] ∧
      { base with completions := [⟨1, .none, 2, 1⟩] }.completions = ⟨1, .none, 2, 1⟩ :: [] ∧
      (0x03 : BitVec 6).toNat ∈ [0x03, 0x07, 0x0B, 0x0E, 0x0F, 0x1C, 0x1F, 0x23, 0x29] ∧ 0x33 ≤ (0x3F : BitVec 6).toNat ∧
      (0x0F : BitVec 6) ∉ offsetsWithOwnWriteRow ∧ (0x18 : BitVec 6) ∉ offsetsWithOwnWriteRow ∧
      (0x0F : BitVec 6).toNat < 0x10 ∧ 0x17 < (0x18 : BitVec 6).toNat := by decide +kernel

theorem witness_TableDataPortMovesOneByte :
    (let s := { base with tmPtr := 0x1FFF };
      s.phase = .running ∧ s.firstCheck.takesWrite s.tmPtr = true ∧ memWf s.firstCheck.mem = true ∧ 0x0600 ≤ s.tmPtr.toNat) ∧
    (let s := { base with tmPtr := 0x0282 }; s.firstCheck.takesWrite s.tmPtr = true ∧ s.tmPtr.toNat < 0x0600) ∧
    (let a := base.newAttempt ⟨.write, 2, 0, 4, .area 0x0D00⟩ 1
      let s := { base with engine := .attempt a, tmPtr := 0x0D04 }
      s.firstCheck.engine = .attempt a ∧ s.firstCheck.takesWrite s.tmPtr = true ∧ 0x0D00 + a.frame.length ≤ s.tmPtr.toNat) ∧
    (let s := { base with tmPtr := 0x0006 }; s.firstCheck.takesWrite s.tmPtr = false) := by decide +kernel

theorem witness_WriteRacesTheFrameByteByByte :
    let a := base.newAttempt ⟨.write, 2, 0, 4, .area 0x0D00⟩ 1
    let s := { base with engine := .attempt a, tmPtr := 0x0D03 }
    s.phase = .running ∧ s.engine = .attempt a ∧ a.frame.kind = .write ∧ a.frame.path = .area 0x0D00 ∧
      3 < a.frame.length ∧ s.tmPtr.toNat = 0x0D00 + 3 ∧ Config.dataBase ≤ 0x0D00 := by decide +kernel

theorem witness_NoticeReadTakesTheLowestMember :
    (let s := base.setTarget 15 { onlineTarget with noticeQuarantined := true };
      s.phase = .running ∧ s.memberCauses 63 ≠ 0 ∧ ∀ k, k < 63 → s.memberCauses k = 0) ∧
    (∀ m, m < 64 → base.memberCauses m = 0) := by decide +kernel

theorem witness_NothingWaitsAfterAnEvent :
    { base with engine := .gap }.engine = .gap ∧ base.engine ≠ .gap ∧ dutyGranted.engine = .granted ∧
    (let s := (withChannel (channelWith .waiting 1) { base with engine := .gap }).settle;
      (s.channel 3).state = .waiting ∧ (s.channel 3).pending ≠ 0) ∧
    { base with engine := .gap, requests := [requestTo 2] }.settle.requests = [requestTo 2] ∧
    { base with busState := .quiet }.settle.busState = .quiet ∧
    (base.settle.engine = .free ∧ base.settle.grant = none ∧ base.settle.softResetPending = false) := by decide +kernel

/-- Two WAKE duties of target 2: 4 is DUE with slack `slack`, 9 is ARMED with credit 1. -/
def twoDuties (slack : Nat) : State :=
  { (withDuty (dutyWith .due ((slack : Int) - 3)) base).setDuty 9 (dutyWith .armed 1) with dueQueue := [4] }

theorem witness_ActiveOrderOfTheArbiter :
    (base.engine = .free ∧ base.grant = none ∧ base.softResetPending = false ∧ base.busState = .active) ∧
    (let s := { withChannel (channelWith .waiting 1) base with requests := [requestTo 2] };
      (∀ c, (s.channel c).state = .waiting ∧ (s.channel c).pending ≠ 0 → s.online (s.currentDescriptor c).target = true) ∧
        s.requests = requestTo 2 :: [] ∧ s.online (requestTo 2).target = true) ∧
    (let s := twoDuties 0; s.dueQueue = [] ++ 4 :: [] ∧ s.eligible 4 = true ∧ s.slackOf 4 = 0) ∧
    (let s := twoDuties 1; (∀ n ∈ s.dueQueue, ¬(s.eligible n = true ∧ s.slackOf n = 0)) ∧ s.eligible 4 = true) ∧
    (let s := { withChannel (channelWith .waiting 1) base with requests := [requestTo 2], hostWait := 3 };
      (s.channel 3).state = .waiting ∧ (s.channel 3).pending ≠ 0 ∧ s.hostWait ≠ 4 ∧
        ∀ e, (s.channel e).state = .waiting ∧ (s.channel e).pending ≠ 0 → e = 3) ∧
    (let s := { withChannel (channelWith .waiting 1) base with requests := [requestTo 2], hostWait := 4 };
      s.requests = requestTo 2 :: [] ∧ s.hostWait = 4) ∧
    (let s := { (twoDuties 1) with dueQueue := [], pullin := true };
      s.requests = [] ∧ (∀ c, ¬((s.channel c).state = .waiting ∧ (s.channel c).pending ≠ 0)) ∧
        (s.duty 9).state = .armed ∧ s.eligible 9 = true ∧ (s.duty 9).balance < ((s.duty 9).pullinLimit.toNat : Int) ∧
        ∀ m, (s.duty m).state = .armed → m = 9) ∧
    (∀ n, ¬(base.pullin = true ∧ (base.duty n).state = .armed)) := by decide +kernel

theorem witness_OtherOrdersOfTheArbiter :
    (let s := { (twoDuties 1) with busState := .draining };
      s.engine = .free ∧ s.grant = none ∧ s.softResetPending = false ∧ s.dueQueue = [] ++ 4 :: [] ∧
        s.eligible 4 = true ∧ s.requests = [] ∧ ∀ c, (s.channel c).state = .idle) ∧
    (let s := { (twoDuties 0) with busState := .quiet };
      ∃ n ∈ s.dueQueue, s.eligible n = true ∧ s.slackOf n = 0 ∧ (s.duty n).quietPolicy = 1) ∧
    (let s := { withDuty { dutyWith .armed 0 with stale := true } base with busState := .draining };
      (∀ n ∈ s.dueQueue, s.eligible n = false) ∧ (s.duty 4).state = .armed ∧ s.eligible 4 = true ∧
        (s.duty 4).stale = true ∧ ∀ m, m < 4 → (s.duty m).stale = false) ∧
    (let s := { base with busState := .draining };
      (∀ n ∈ s.dueQueue, s.online (s.dutyTarget n) = false) ∧
        ∀ n, (s.duty n).stale = true → s.online (s.dutyTarget n) = false) ∧
    (let s := { withDuty { dutyWith .due (-1) with held := true } base with busState := .draining, dueQueue := [4] };
      (∀ n ∈ s.dueQueue, s.eligible n = false) ∧ s.online (s.dutyTarget 4) = true ∧ ∀ n, (s.duty n).stale = false) ∧
    { base with busState := .excursion }.busState = .excursion ∧
    (let s := { base with busState := .waking }; s.busState = .waking ∧ s.wakeWaiting = false) ∧
    { base with busState := .waking, wakeWaiting := true }.wakeWaiting = true ∧
    { base with busState := .quiet }.busState = .quiet := by decide +kernel

theorem witness_GrantedDutyStartsItsRun :
    (let s := withDuty (dutyWith .due (-1)) base;
      s.online (s.dutyTarget 4) = true ∧ s.transactionKind (s.duty 4).listFirst.toNat = .write ∧
        (s.target (s.dutyTarget 4)).inSync = true ∧ (withTarget .offline s).online (s.dutyTarget 4) = false) ∧
    (let s := (withDuty (dutyWith .armed 0) base).setTarget 2 { onlineTarget with inSync := false };
      s.online (s.dutyTarget 4) = true ∧ (s.target (s.dutyTarget 4)).inSync = false) ∧
    (let s := withDuty { dutyWith .due (-1) with listFirst := 2 } base;
      s.transactionKind (s.duty 4).listFirst.toNat = .readCapture) := by decide +kernel

theorem witness_GrantedChannelAndRequestStart :
    (let s := withChannel (channelWith .waiting 1) base;
      s.online (s.currentDescriptor 3).target = true ∧ 0x0D00 ≤ (s.channel 3).currentAddress.toNat ∧
        (s.channel 3).currentAddress.toNat + (s.currentDescriptor 3).unitSize.toNat ≤ 0x2000 ∧
        (s.currentDescriptor 3).isWrite = false ∧
        (withTarget .offline s).online (s.currentDescriptor 3).target = false) ∧
    (let s := withChannel { channelWith .waiting 1 with currentAddress := 0x1FFF } base;
      0x2000 < (s.channel 3).currentAddress.toNat + (s.currentDescriptor 3).unitSize.toNat) ∧
    (let s := { withChannel (channelWith .waiting 1) base with mem := (0x600, 1) :: table };
      (s.currentDescriptor 3).isWrite = true ∧ (s.target (s.currentDescriptor 3).target).inSync = true) ∧
    (let s := { base with requests := [{ requestTo 2 with isWrite := true, forceSync := true }] };
      s.requests = { requestTo 2 with isWrite := true, forceSync := true } :: [] ∧ s.online 2 = true ∧
        (withTarget .quarantined s).online 2 = false) := by
  decide +kernel

theorem witness_NextFrameFollowsTheTargetCheck :
    (let s := { dutyAttempt 1 (dutyWith .running 0) with engine := .interGap 5 };
      s.engine = .interGap 5 ∧ s.grant = some (.duty 4 1) ∧ (s.duty 4).disarmPending = false ∧
        s.online (s.dutyTarget 4) = true ∧ (withTarget .offline s).online (s.dutyTarget 4) = false) ∧
    (let s := { channelAttempt (channelWith .busy 1) with engine := .interGap 1 };
      s.grant = some (.channel 3 false) ∧ s.online (s.currentDescriptor 3).target = true ∧
        (withTarget .offline s).online (s.currentDescriptor 3).target = false) ∧
    (let s := { requestAttempt with engine := .interGap 1 };
      s.grant = some .host ∧ s.inFlight = some (requestTo 2) ∧ s.online (requestTo 2).target = true ∧
        s.softResetPending = false ∧ (withTarget .quarantined s).online (requestTo 2).target = false) ∧
    (dutyGranted.engine = .granted ∧ dutyGranted.grant = some (.duty 4 1) ∧ (dutyGranted.duty 4).disarmPending = false ∧
      dutyGranted.online (dutyGranted.dutyTarget 4) = true ∧ dutyGranted.phase = .running ∧ dutyGranted.unit = .ready) ∧
    base.engine ≠ .granted := by decide +kernel

theorem witness_AttemptsRunTheirPhasesAndAreDecoded :
    ((∀ a, base.engine ≠ .attempt a) ∧ ∀ b, base.engine ≠ .broadcast b) ∧
    let clean := fun f : Frame => f.kind = .read → ∀ y ∈ slotSamples f.length [⟨0x01, true⟩], sampleOdd y = true
    ((⟨.write, 2, 0, 16, .none⟩ : Frame).header true).length = 3 ∧ (⟨.write, 2, 0, 16, .none⟩ : Frame).length ≤ 16 ∧
    (syncFrame 15).length ≤ 16 ∧ requestAttempt.engine = .attempt (base.newAttempt (requestTo 2).frame 1) ∧
    { base with engine := .broadcast .wake }.engine = .broadcast .wake ∧
    (let a := dutyAttempt 1 (dutyWith .running 0);
      (a.newAttempt (a.transactionFrame 2 0) 1).sent.length = (a.transactionFrame 2 0).length ∧
        (a.transactionFrame 2 0).kind = .write ∧ 1 ≤ (a.transactionFrame 2 0).length) ∧
    (let a := { base.newAttempt (requestTo 2).frame 1 with profile := 1, readyLimit := 255 };
      a.frame.kind ≠ .sync ∧ a.profile = 1 ∧ 1 < a.frame.length ∧ a.readyLimit.toNat < 256 ∧
        (∀ k, k < 1 → 255 ≤ a.readyLimit.toNat)) ∧
    (base.newAttempt (requestTo 2).frame 1).profile ≠ 1 ∧ (base.newAttempt (syncFrame 2) 1).frame.kind = .sync ∧
    (¬clean ⟨.read, 2, 0, 1, .none⟩) ∧ clean ⟨.write, 2, 0, 1, .none⟩ ∧ sampleOdd ⟨0x5A, false⟩ = false ∧
      sampleOdd (driven 0x5A) = true ∧ (driven 0x3C).sd = 0x3C ∧ (driven 0x66).sd = 0x66 ∧
    (base.transactionFrame 2 2).path = .record 2 ∧ base.transactionKind 2 = .readCapture ∧
      base.transactionKind 1 ≠ .readCapture ∧ (requestTo 2).frame.path = .area 0x1800 :=
  ⟨⟨fun a h => (by cases h), fun b h => (by cases h)⟩, by decide +kernel⟩

theorem witness_RetriedOutcomesStartTheNextAttempt :
    (let a := { base.newAttempt (requestTo 2).frame 1 with profile := 1 };
      { base with engine := .attempt a }.engine = .attempt a ∧ a.count ≤ a.retryLimit.toNat ∧
        (attemptOutcome a.frame idleSample []).retried = true ∧ a.frame.kind ≠ .sync ∧ a.profile = 1) ∧
    (let a := { base.newAttempt (requestTo 2).frame 2 with profile := 1 }; a.retryLimit.toNat < a.count) ∧
    (base.newAttempt (syncFrame 2) 1).frame.kind = .sync ∧ (base.newAttempt (requestTo 2).frame 1).profile ≠ 1 ∧
    (let a := base.newAttempt (requestTo 2).frame 1;
      { base with engine := .retryGap a }.engine = .retryGap a) := by decide +kernel

theorem witness_TargetTableCountsTheOutcome :
    (let a := base.newAttempt ⟨.write, 2, 0, 1, .none⟩ 2;
      { base with engine := .attempt a }.engine = .attempt a ∧
        a.endsBy (.attemptEnd idleSample []) .noResponse [] ∧ a.last .noResponse) ∧
    (let a := lastHandshake (base.newAttempt ⟨.write, 2, 0, 1, .none⟩ 1);
      { base with engine := .attempt a }.engine = .attempt a ∧ a.endsBy .readyTimeout .readyTimeout [] ∧
        a.last .readyTimeout) ∧
    { onlineTarget with consecFails := 2 }.consecFails + 1 = onlineTarget.quarantineThreshold ∧
    attemptOutcome (syncFrame 2) (driven 0x5A) [] = .ok ∧
    attemptOutcome (requestTo 2).frame (driven 0x3C) [] = .nak ∧
    { onlineTarget with offlinePending := true }.offlinePending = true :=
  ⟨⟨rfl, status_ends _ _ _, last_of_limit (by decide +kernel) _⟩,
    ⟨rfl, timeout_ends _ (by decide) rfl, last_of_limit (by decide) _⟩, by decide, by decide +kernel, by decide +kernel,
    rfl⟩

theorem witness_SuccessfulRunPaysOne :
    (let s := dutyAttempt 1 (dutyWith .running (-2));
      let a := s.newAttempt (s.transactionFrame 2 0) 1
      s.engine = .attempt a ∧ s.grant = some (.duty 4 1) ∧ s.softResetPending = false ∧
        (s.duty 4).disarmPending = false ∧ (s.duty 4).listLength.toNat ≤ 1 ∧
        attemptOutcome a.frame (driven 0x5A) [] = .ok ∧ a.frame.kind = .write ∧
        s.transactionKind ((s.duty 4).listFirst.toNat + 1 - 1) = .write) ∧
    (let s := withDuty { dutyWith .running 2 with listFirst := 1 } base;
      let f := s.transactionFrame 2 1
      f.kind = .read ∧ f.path = .record 1 ∧ f.length ≤ 4 ∧ s.transactionKind 1 = .readCompare ∧
        attemptOutcome f (driven 0x5A) [driven 7] = .ok ∧
        ∀ k, k < f.length → s.compareEnable 1 k = true →
          (receivedBytes f [driven 7]).getD k 0xFF = s.memByte (0x0904 + 8 * 1 + k)) ∧
    (let s := withDuty { dutyWith .running 0 with listFirst := 2 } base;
      (s.transactionFrame 2 2).length ≤ 4 ∧ s.transactionKind 2 = .readCapture) := by decide +kernel

theorem witness_FailedRunHoldsOrFaults :
    (let s := dutyAttempt 1 { dutyWith .running (-1) with consecFails := 2 };
      let a := s.newAttempt (s.transactionFrame 2 0) 1
      s.engine = .attempt a ∧ s.grant = some (.duty 4 1) ∧ s.softResetPending = false ∧
        (s.duty 4).disarmPending = false ∧ (s.duty 4).consecFails + 1 = (s.duty 4).faultThreshold ∧
        a.endsBy (.attemptEnd (driven 0x3C) []) .nak [] ∧ a.last .nak ∧
        (lastHandshake a).endsBy .readyTimeout .readyTimeout [] ∧ (lastHandshake a).last .readyTimeout) ∧
    (let s := withDuty { dutyWith .running 2 with listFirst := 1 } base;
      let a := s.newAttempt (s.transactionFrame 2 1) 1
      a.endsBy (reads [8]) .ok [driven 8] ∧ a.last .ok ∧ a.frame.kind = .read ∧
        1 = (s.duty 4).listFirst.toNat + 1 - 1 ∧ a.frame.path = .record 1 ∧ s.transactionKind 1 = .readCompare ∧
        0 < a.frame.length ∧ s.compareEnable 1 0 = true ∧
        (receivedBytes a.frame [driven 8]).getD 0 0xFF ≠ s.memByte (0x0904 + 8 * 1 + 0)) ∧
    ((dutyWith .running (-1)).consecFails + 1 ≠ (dutyWith .running (-1)).faultThreshold ∧
      (dutyWith .running (-1)).balance < 0 ∧ 0 ≤ (dutyWith .running 0).balance) :=
  ⟨⟨by decide +kernel, by decide +kernel, by decide +kernel, by decide +kernel, by decide +kernel, status_ends _ _ _,
      last_of_not_retried rfl, timeout_ends _ (by decide +kernel) rfl, last_of_limit (by decide) _⟩,
    ⟨status_ends _ _ _, last_of_not_retried rfl, by decide +kernel, by decide +kernel, by decide +kernel,
      by decide +kernel, by decide +kernel, by decide +kernel, by decide +kernel⟩, by decide⟩

theorem witness_RunGoesOnAfterATransaction :
    (let s := dutyAttempt 1 { dutyWith .running 0 with listLength := 2 };
      let a := s.newAttempt (s.transactionFrame 2 0) 1
      s.engine = .attempt a ∧ s.grant = some (.duty 4 1) ∧ s.softResetPending = false ∧
        (s.duty 4).disarmPending = false ∧ attemptOutcome a.frame (driven 0x5A) [] = .ok ∧ a.frame.kind = .write ∧
        s.transactionKind ((s.duty 4).listFirst.toNat + 1 - 1) = .write ∧ 1 < (s.duty 4).listLength.toNat) ∧
    (let f := base.transactionFrame 2 1;
      f.kind = .read ∧ f.path = .record 1 ∧ base.transactionKind 1 = .readCompare ∧
        attemptOutcome f (driven 0x5A) [driven 7] = .ok ∧
        ∀ k, k < f.length → base.compareEnable 1 k = true →
          (receivedBytes f [driven 7]).getD k 0xFF = base.memByte (0x0904 + 8 * 1 + k)) ∧
    (let f := base.transactionFrame 2 2;
      f.kind = .read ∧ f.path = .record 2 ∧ base.transactionKind 2 = .readCapture ∧ f.length ≤ 4) ∧
    attemptOutcome (syncFrame 2) (driven 0x5A) [] = .ok := by decide +kernel

theorem witness_UnitEndFollowsItsSteps :
    (let r := channelWith .busy 1; r.pending ≠ 0 ∧ r.stopPending = false ∧ r.haltCause = .none ∧ r.remainingCount ≠ 1) ∧
    (let s := withChannel { channelWith .busy 1 with currentSlot := 2, remainingCount := 1 } base;
      (s.channel 3).remainingCount = 1 ∧ (s.currentDescriptor 3).endAction = 0) ∧
    (let s := withChannel { channelWith .busy 1 with remainingCount := 1 } base;
      (s.currentDescriptor 3).endAction = 1 ∧ (s.descriptor (s.currentDescriptor 3).nextSlot.toNat).valid = false) ∧
    (let s := { withChannel { channelWith .busy 1 with remainingCount := 1 } base with
        mem := memWrite table 0x609 2 };
      (s.currentDescriptor 3).endAction = 1 ∧ (s.descriptor (s.currentDescriptor 3).nextSlot.toNat).valid = true) ∧
    (let s := { withChannel { channelWith .busy 1 with remainingCount := 1 } base with
        mem := memWrite table 0x608 2 };
      (s.currentDescriptor 3).endAction = 2 ∧ (s.descriptor (s.channel 3).currentSlot.toNat).valid = true) ∧
    { channelWith .busy 2 with haltCause := .overrun, remainingCount := 1 }.haltCause ≠ .none ∧
    { channelWith .busy 2 with stopPending := true }.stopPending = true ∧ Condition.nak ≠ .none := by decide +kernel

theorem witness_UnitFramesFollowTheirOutcome :
    (let s := channelAttempt (channelWith .busy 1);
      let a := s.newAttempt (s.unitFrame 3) 1
      s.engine = .attempt a ∧ s.grant = some (.channel 3 false) ∧ s.softResetPending = false ∧
        a.frame.kind = .read ∧ (s.currentDescriptor 3).ackEnable = true ∧ a.frame.path = .area 0x1000 ∧
        Config.dataBase ≤ 0x1000 ∧ (s.channel 3).currentSlot.toNat ≤ 47 ∧
        a.endsBy (reads [1, 2]) .ok [driven 1, driven 2] ∧ a.last .ok ∧
        a.endsBy (.attemptEnd (driven 0x3C) []) .nak [] ∧ a.last .nak ∧
        (lastHandshake a).endsBy .readyTimeout .readyTimeout [] ∧ (lastHandshake a).last .readyTimeout) ∧
    (let s := withChannel { channelWith .busy 1 with currentSlot := 2 } base; (s.currentDescriptor 3).ackEnable = false) ∧
    (let s := { withChannel (channelWith .busy 1) base with grant := some (.channel 3 true) };
      (s.acknowledgeFrame 3).kind = .write ∧ attemptOutcome (s.acknowledgeFrame 3) (driven 0x5A) [] = .ok) ∧
    (let s := { withChannel (channelWith .busy 1) base with mem := (0x600, 1) :: table };
      (s.unitFrame 3).kind = .write ∧ (s.currentDescriptor 3).ackEnable = true) ∧
    attemptOutcome (syncFrame 2) (driven 0x5A) [] = .ok :=
  ⟨⟨by decide +kernel, by decide +kernel, by decide +kernel, by decide +kernel, by decide +kernel, by decide +kernel,
      by decide +kernel, by decide +kernel, status_ends _ _ _, last_of_not_retried rfl, status_ends _ _ _,
      last_of_not_retried rfl, timeout_ends _ (by decide +kernel) rfl, last_of_limit (by decide) _⟩,
    by decide +kernel, by decide +kernel, by decide +kernel, by decide +kernel⟩

theorem witness_RequestEndsInOneCompletion :
    let s := requestAttempt
    let a := s.newAttempt (requestTo 2).frame 1
    s.engine = .attempt a ∧ s.grant = some .host ∧ s.inFlight = some (requestTo 2) ∧ s.softResetPending = false ∧
      a.frame.kind = .read ∧ a.frame.path = .area 0x1800 ∧ a.endsBy (reads [1, 2]) .ok [driven 1, driven 2] ∧
      a.last .ok ∧ a.endsBy (.attemptEnd (driven 0x3C) []) .nak [] ∧ a.last .nak ∧
      (lastHandshake a).endsBy .readyTimeout .readyTimeout [] ∧ (lastHandshake a).last .readyTimeout ∧
      attemptOutcome (syncFrame 2) (driven 0x5A) [] = .ok :=
  ⟨by decide +kernel, by decide +kernel, by decide +kernel, by decide +kernel, by decide +kernel, by decide +kernel,
    status_ends _ _ _, last_of_not_retried rfl, status_ends _ _ _, last_of_not_retried rfl,
    timeout_ends _ (by decide +kernel) rfl, last_of_limit (by decide) _, by decide +kernel⟩

theorem witness_QuietControllerActsAtEachEnd :
    (let s := { base with engine := .broadcast .quiet }; s.engine = .broadcast .quiet ∧ s.purpose ≠ .exit) ∧
    (let s := { base with engine := .broadcast .quiet, purpose := .exit }; s.purpose = .exit) ∧
    base.engine ≠ .broadcast .quiet ∧ { base with engine := .broadcast .wake }.engine = .broadcast .wake ∧
    base.engine ≠ .broadcast .wake ∧ base.wakeWaiting = false ∧
    (let s := wakingState .excursion;
      s.wakeWaiting = true ∧ s.purpose = .excursion ∧ 0 < s.wakeLatched.toNat - s.wakeTimer ∧
        s.tickCount + (s.wakeLatched.toNat - s.wakeTimer) < s.periodInForce.toNat) ∧
    (let s := { wakingState .exit with tickCount := 999 };
      s.purpose ≠ .excursion ∧ s.periodInForce.toNat ≤ s.tickCount + (s.wakeLatched.toNat - s.wakeTimer) ∧
        s.tickCount + (s.wakeLatched.toNat - s.wakeTimer) - s.periodInForce.toNat < s.tickPeriod.toNat) ∧
    (let s := { wakingState .exit with wakeTimer := 200 }; s.wakeLatched.toNat - s.wakeTimer = 0) := by
  decide +kernel

theorem witness_WriteIsCarriedOutAtMostOnceAndSyncMakesItNew :
    let d : Device := ⟨15, true, false⟩
    d.asleep = false ∧ { d with asleep := true }.asleep = true ∧ (1 ≤ 1 ∧ 1 ≤ 16) ∧ (1 ≤ 16 ∧ 16 ≤ 16) := by decide

/-- A running state with a duty DUE in the queue that meets the invariants; its step takes the command at the front. -/
def fit : State := { twoDuties 1 with engine := .gap, pending := [.gapEnd] }

theorem witness_SettingsAndCountsStayBounded :
    fit.settingsInRange ∧ fit.slotsHeld ≤ 8 ∧ fit.hostWaitBounded ∧ fit.pendingBounded ∧
      step fit = exec .gapEnd { fit with pending := [] } := by
  unfold State.settingsInRange State.hostWaitBounded State.pendingBounded
  refine ⟨?_, ?_, ?_, ?_, rfl⟩ <;> decide +kernel

theorem witness_DueQueueStaysExactAndOrdered : fit.queueKept := by
  have h : fit.dueQueue = [4] := rfl
  refine fun _ => ⟨⟨by rw [h]; decide, ?_⟩, by unfold State.dueQueueOrdered; rw [h]; simp, fun n p hg => by cases hg⟩
  decide +kernel

theorem witness_AccountsStayInBounds : fit.accountsKept := by
  have hb : ∀ n, fit.duty n = (if n = 4 then dutyWith .due (-2) else if n = 9 then dutyWith .armed 1 else DutyRec.zero) := by
    decide +kernel
  intro _ n
  rw [hb n]
  split
  · exact ⟨by decide, by decide⟩
  · split
    · exact ⟨by decide, by decide, by decide⟩
    · rfl

theorem witness_BusKeepsOneOwnerAndOnlineTargets :
    requestAttempt.busKept ∧ requestAttempt.framesOnline ∧ requestAttempt.frameOnBus = some (requestTo 2).frame := by
  refine ⟨⟨rfl, by decide⟩, fun f hf => ?_, rfl⟩
  cases hf
  decide +kernel

theorem witness_WorkInUseStaysValid :
    requestAttempt.queueKept ∧ requestAttempt.framesOnline ∧ requestAttempt.workKept := by
  refine ⟨fun _ => ⟨⟨by decide, by decide +kernel⟩, List.Pairwise.nil, fun n p hg => by cases hg⟩,
    witness_BusKeepsOneOwnerAndOnlineTargets.2.1, fun _ => ?_⟩
  refine ⟨by decide +kernel, by decide +kernel, fun r hr => ?_, by decide +kernel, by decide +kernel,
    fun n p hg => (by cases hg), fun c k hg => (by cases hg), fun f hf => ?_⟩
  · rcases hr with hr | hr
    · cases hr
    · cases hr; decide
  · cases hf; exact (by decide : Config.dataBase ≤ 0x1800 ∧ 0x1800 + 2 ≤ Config.tableSize)

end Sys2Proof.Tests
end

/-!
SUPPORT. What a step of the part is made of. `Act` lists the elementary acts of the part, each with the guard under
which the model performs it, and `step_acts` says that every step is a run of such acts; an invariant of every step
then needs one look at each act and no look at the 51 rows.
-/

section
namespace Sys2Proof.Machine

open Sys2Proof

/-- One elementary act of the part. -/
inductive Act : State → State → Prop
  /-- Window, timebase, triggers' levels, results, causes and the wake wait: no record, queue, grant, frame or setting. -/
  | quiet {s t : State} (h : t = { s with
      hostData := t.hostData, readLatch := t.readLatch, writeHold := t.writeHold, unit := t.unit
      cmdOperand := t.cmdOperand, cmdCode := t.cmdCode, cmdResult := t.cmdResult, noticeCause := t.noticeCause
      commandDone := t.commandDone, busStateCause := t.busStateCause, guardCause := t.guardCause
      collisionCause := t.collisionCause, readyCause := t.readyCause, tmPtr := t.tmPtr, guardAddr := t.guardAddr
      prescaler := t.prescaler, prescalerDiv := t.prescalerDiv, periodInForce := t.periodInForce
      tickCount := t.tickCount, ticksDue := t.ticksDue, pullin := t.pullin, lineEdge := t.lineEdge
      lineLevel := t.lineLevel, staging := t.staging, softEnd := t.softEnd, purpose := t.purpose
      wakeTimer := t.wakeTimer, wakeLatched := t.wakeLatched, wakeWaiting := t.wakeWaiting
      freeCount := t.freeCount, pending := t.pending }) : Act s t
  -- settings (R3, R4, R130, R163, R187)
  | setClock (s : State) (v : Byte) (h : 8 ≤ v.toNat ∧ v.toNat ≤ 32) : Act s { s with clockMhz := v }
  | setTickPeriod (s : State) (v : Half) (h : 10 ≤ v.toNat) : Act s { s with tickPeriod := v }
  | setWakeUs (s : State) (v : Half) (h : 1 ≤ v.toNat ∧ v.toNat ≤ 4095) : Act s { s with wakeUs := v }
  | setBusDiv (s : State) (v : Byte) (h : 2 ≤ v.toNat ∧ v.toNat ≤ 64) : Act s { s with busDiv := v }
  | setIntEnable (s : State) (v : Half) : Act s { s with intEnable := v &&& 0x7F }
  -- table memory
  /-- A host write that record protection takes (R59 to R61). -/
  | hostByte (s : State) (a : BitVec 13) (v : Byte) (h : s.takesWrite a = true) : Act s (s.putHostByte a v)
  /-- Its race with a WRITE attempt (R65). -/
  | race (s : State) (a : Nat) (v : Byte) : Act s (s.raceWrite a v)
  /-- A READ attempt's bytes are stored (R40, R66). -/
  | stores (s : State) (a : Attempt) (o : FrameOutcome) (data : List Sample) (h : s.engine = .attempt a) :
      Act s (s.storeReceived a.frame o data)
  -- duties
  /-- A duty's timer, marks and notices move; its host fields, state and account stand. -/
  | dutyMarks (s : State) (n : Fin 32) (d : DutyRec) (h : d = { s.duty n with
      remaining := d.remaining, held := d.held, stale := d.stale, disarmPending := d.disarmPending
      noticeRunDone := d.noticeRunDone, noticeRunFailed := d.noticeRunFailed, noticeLate := d.noticeLate
      noticeFault := d.noticeFault }) : Act s (s.setDuty n d)
  | arms (s : State) (n : Fin 32) (ha : (s.duty n).active = false) (hv : s.dutyValid n = true) :
      Act s (s.setDuty n (s.duty n).arm)
  | disarms (s : State) (n : Fin 32) (h : (s.duty n).state = .armed ∨ (s.duty n).state = .faulted) :
      Act s (s.setDuty n (s.duty n).disarm)
  | disarmsDue (s : State) (n : Fin 32) (h : (s.duty n).state = .due) :
      Act s ((s.removeDue n).setDuty n (s.duty n).disarm)
  | cuts (s : State) (n : Fin 32) (h : (s.duty n).state = .running ∨ ∃ position, s.grant = some (.duty n position)) :
      Act s (s.cutRun n)
  | expires (s : State) (n : Fin 32) (h : (s.duty n).active = true) : Act s (s.expireDuty n)
  | runSucceeds (s : State) (n : Fin 32) (position : Nat) (h : s.grant = some (.duty n position)) :
      Act s (s.runSucceeded n)
  | runFails (s : State) (n : Fin 32) (cause : Condition) (position : Nat) (h : s.grant = some (.duty n position)) :
      Act s (s.runFailed n cause position)
  -- channels
  /-- A channel's stop mark and notices move; its host fields, state and counts stand. -/
  | channelMarks (s : State) (c : Fin 16) (r : ChannelRec) (h : r = { s.channel c with
      stopPending := r.stopPending, noticeEnd := r.noticeEnd, noticeChain := r.noticeChain
      noticeHalt := r.noticeHalt }) : Act s (s.setChannel c r)
  | arrives (s : State) (c : Fin 16) : Act s (s.arriveAt c)
  | halts (s : State) (c : Fin 16) (ht : s.hasTrigger c = true)
      (ho : s.online (s.currentDescriptor c).target = false) :
      Act s (s.setChannel c { s.channel c with haltCause := .targetDown }.halt)
  | starts (s : State) (c : Fin 16) (ha : (s.channel c).active = false) (hs : (s.channel c).firstSlot.toNat ≤ 47)
      (hv : (s.descriptor (s.channel c).firstSlot.toNat).valid = true) :
      Act s (s.setChannel c { (s.channel c).load (s.channel c).firstSlot (s.descriptor (s.channel c).firstSlot.toNat) with
        pending := 0, haltCause := .none, stopPending := false, state := .waiting })
  | stops (s : State) (c : Fin 16) (h : (s.channel c).state = .waiting) :
      Act s (s.setChannel c { s.channel c with state := .idle, pending := 0 })
  | unitEnds (s : State) (c : Fin 16) (failure : Condition) (acknowledge : Bool)
      (h : s.grant = some (.channel c acknowledge)) : Act s (s.unitEnd c failure)
  -- targets
  /-- A target's counts, sequence marks and notices move; its host fields and state stand. -/
  | targetMarks (s : State) (t : Fin 16) (r : TargetRec) (h : r = { s.target t with
      consecFails := r.consecFails, lastFailure := r.lastFailure, seq := r.seq, inSync := r.inSync
      offlinePending := r.offlinePending, framesCompleted := r.framesCompleted
      noticeQuarantined := r.noticeQuarantined }) : Act s (s.setTarget t r)
  | comesOnline (s : State) (t : Fin 16) (ho : s.online t = false) (hv : (s.target t).valid = true) :
      Act s (s.setTarget t (s.target t).bringOnline)
  | goesOffline (s : State) (t : Fin 16) (h : s.online t = false ∨ s.frameTo t = false) :
      Act s (s.setTarget t { s.target t with state := .offline })
  /-- The target table counts the outcome of the attempt on the bus, which leaves the bus (R146, R152). -/
  | counts (s : State) (a : Attempt) (o : FrameOutcome) (h : s.engine = .attempt a) :
      Act s { s.countOutcome a.frame.target a.frame.kind o with engine := .interGap 1 }
  -- host requests
  | submits (s : State) (hv : s.stagingValid = true) (hf : s.slotsFree ≠ 0) :
      Act s { s with requests := s.requests ++ [s.stagedRequest] }
  | disposes (s : State) : Act s s.disposeHeads
  | flushes (s : State) : Act s s.flushRequests
  | pops (s : State) : Act s s.popCompletion
  | requestEnds (s : State) (r : Request) (c : Completion) (hg : s.grant = some .host) (hi : s.inFlight = some r) :
      Act s (s.requestEnd c)
  -- the bus
  | takes (s : State) (k : Candidate) (hf : s.busFree = true) (hs : s.softResetPending = false)
      (hc : s.choice = some k) : Act s (s.take k)
  | grantEnds (s : State) : Act s s.endGrant
  | startsTransaction (s : State) (n : Fin 32) (position : Nat) (hg : s.grant = some (.duty n position))
      (ho : s.online (s.dutyTarget n) = true) :
      Act s (s.startFrame (s.transactionFrame (s.dutyTarget n) (s.recordAt n position)))
  | startsUnitFrame (s : State) (c : Fin 16) (acknowledge : Bool) (hg : s.grant = some (.channel c acknowledge))
      (ho : s.online (s.currentDescriptor c).target = true) :
      Act s (s.startFrame (if acknowledge then s.acknowledgeFrame c else s.unitFrame c))
  | startsRequestFrame (s : State) (r : Request) (hg : s.grant = some .host) (hi : s.inFlight = some r)
      (ho : s.online r.target = true) : Act s (s.startFrame r.frame)
  | waitsToRetry (s : State) (a : Attempt) (h : s.engine = .attempt a) : Act s { s with engine := .retryGap a }
  | retries (s : State) (a : Attempt) (h : s.engine = .retryGap a) :
      Act s { s with engine := .attempt (s.newAttempt a.frame (a.count + 1)) }
  | nextPosition (s : State) (n : Fin 32) (position j k : Nat) (hg : s.grant = some (.duty n position))
      (he : s.engine = .interGap j) (hl : position < (s.duty n).listLength.toNat) :
      Act s { s with grant := some (.duty n (position + 1)), engine := .interGap k }
  | acknowledges (s : State) (c : Fin 16) (j : Nat) (hg : s.grant = some (.channel c false))
      (he : s.engine = .interGap j) : Act s { s with grant := some (.channel c true) }
  | broadcasts (s : State) (b : Broadcast) (h : s.engine = .resetWait ∨ s.busFree = true) : Act s (s.startBroadcast b)
  | idles (s : State) (e : BusEngine) (h : s.engineWorks = false) (he : e = .gap ∨ e = .free) :
      Act s { s with engine := e }
  -- the quiet controller
  | busMoves (s : State) (b : BusState)
      (h : b = .quiet ∨ b = .waking → s.busState = .quiet ∨ s.busState = .waking ∨ s.engineWorks = false) :
      Act s { s with busState := b }
  -- resets
  | softResets (s : State) (h : s.frameOnBus = none) : Act s s.softResetEffects
  | fullResets (s : State) : Act s s.fullReset
  | releases (s : State) (h : s.phase = .inReset) : Act s { s with phase := .clearing }
  | clears (s : State) (lines : Byte) (h : s.phase = .clearing) : Act s (s.cleared lines)

/-- A run of elementary acts. -/
abbrev Acts : State → State → Prop := Relation.ReflTransGen Act

theorem Act.run {s t : State} (h : Act s t) : Acts s t := .single h

/-- What every act keeps, a run of acts keeps. -/
theorem Acts.keeps {P : State → Prop} (hP : ∀ {s t}, Act s t → P s → P t) {s t : State} (h : Acts s t) (hs : P s) :
    P t := by
  induction h with
  | refl => exact hs
  | tail _ h ih => exact hP h ih

theorem acts_foldl {α : Type} {f : State → α → State} (hf : ∀ s x, Acts s (f s x)) (l : List α) (s : State) :
    Acts s (l.foldl f s) := by
  induction l generalizing s with
  | nil => exact .refl
  | cons x l ih => exact (hf s x).trans (ih (f s x))

/-! ## The end of an event -/

theorem acts_haltDownChannels (s : State) : Acts s s.haltDownChannels := by
  refine acts_foldl (fun s c => ?_) allSixteen s
  unfold State.haltIfDown
  split
  · rename_i h
    simp only [Bool.and_eq_true, Bool.not_eq_true'] at h
    exact (Act.halts s c h.1 h.2).run
  · exact .refl

theorem acts_startWork (s : State) : Acts s s.startWork := by
  rcases startWork_cases s with ⟨n, p, hg, e⟩ | ⟨c, k, hg, e⟩ | ⟨r, hg, hi, e⟩ | ⟨_, e⟩ <;> rw [e]
  · rcases startTransaction_cases s n p with ⟨ho, e⟩ | ⟨_, e⟩ <;> rw [e]
    · exact (Act.startsTransaction s n p hg ho).run
    · exact (Act.runFails s n _ p hg).run
  · rcases startUnitFrame_cases s c k with ⟨ho, e⟩ | ⟨_, e⟩ <;> rw [e]
    · exact (Act.startsUnitFrame s c k hg ho).run
    · exact (Act.unitEnds s c _ k hg).run
  · rcases startRequestFrame_cases s r with ⟨ho, e⟩ | ⟨_, e⟩ <;> rw [e]
    · exact (Act.startsRequestFrame s r hg hi ho).run
    · exact (Act.requestEnds s r _ hg hi).run
  · exact (Act.grantEnds s).run

theorem acts_firstCheck (s : State) : Acts s s.firstCheck := by
  unfold State.firstCheck
  split
  · exact acts_startWork s
  · exact .refl

theorem acts_startExcursion (s : State) : Acts s s.startExcursion := by
  rcases startExcursion_cases s with ⟨hb, _, e⟩ | ⟨_, e⟩ <;> rw [e]
  · exact (Act.busMoves s .waking fun _ => .inl hb).run.trans (Act.quiet rfl).run

theorem acts_arbitrate (s : State) : Acts s s.arbitrate := by
  rcases arbitrate_cases s with ⟨_, e⟩ | ⟨hf, hs, ⟨k, hc, e⟩ | ⟨_, b, _, e⟩ | ⟨_, _, e⟩⟩ <;> rw [e]
  · exact (Act.takes s k hf hs hc).run
  · exact (Act.broadcasts s b (.inr hf)).run

theorem acts_decisions (s : State) : Acts s s.decisions :=
  ((acts_startExcursion s).trans (acts_arbitrate _)).trans (Act.disposes _).run

theorem acts_react (s : State) : Acts s s.react :=
  ((acts_haltDownChannels s).trans (Act.disposes _).run).trans (acts_decisions _)

theorem acts_settle (s : State) : Acts s s.settle :=
  (((acts_haltDownChannels s).trans (Act.disposes _).run).trans (acts_firstCheck _)).trans (acts_decisions _)

/-! ## Maps over the record files -/

theorem acts_mapDuties (s : State) (f : DutyRec → DutyRec)
    (hf : ∀ s n, Act s (State.setDuty s n (f (s.duty n)))) : Acts s (s.mapDuties f) :=
  acts_foldl (fun s n => (hf s n).run) allDuties s

theorem acts_markStale (s : State) : Acts s s.markStale := by
  refine acts_mapDuties s _ fun s n => .dutyMarks s n _ ?_
  unfold DutyRec.markStale
  split <;> rfl

/-! ## The outcome of a frame -/

/-- The ends of a grant's work do not read the bus engine, which they set. -/
theorem runSucceeded_engine (s : State) (e : BusEngine) (n : Fin 32) :
    { s with engine := e }.runSucceeded n = s.runSucceeded n := by
  have hd : { s with engine := e }.duty n = s.duty n := rfl
  unfold State.runSucceeded State.settleDuty
  rw [hd]
  split <;> rfl

theorem runFailed_engine (s : State) (e : BusEngine) (n : Fin 32) (cause : Condition) (position : Nat) :
    { s with engine := e }.runFailed n cause position = s.runFailed n cause position := by
  have hd : { s with engine := e }.duty n = s.duty n := rfl
  unfold State.runFailed State.settleDuty
  simp only [hd]
  split
  · rfl
  · split <;> rfl

theorem unitEnd_engine (s : State) (e : BusEngine) (c : Fin 16) (failure : Condition) :
    { s with engine := e }.unitEnd c failure = s.unitEnd c failure := by
  have hc : { s with engine := e }.channel c = s.channel c := rfl
  unfold State.unitEnd
  simp only [hc]
  split <;> rfl

/-- `s` with the frame of attempt `a` over: its bytes are stored, its outcome is counted, and no frame is on the bus. -/
def State.frameOver (s : State) (a : Attempt) (o : FrameOutcome) (data : List Sample) : State :=
  { (s.storeReceived a.frame o data).countOutcome a.frame.target a.frame.kind o with engine := .interGap 1 }

theorem acts_frameOver {s : State} {a : Attempt} (o : FrameOutcome) (data : List Sample) (h : s.engine = .attempt a) :
    Acts s (s.frameOver a o data) :=
  (Act.stores s a o data h).run.trans (Act.counts _ a o (by rw [storeReceived_frame]; exact h)).run

/-- Counting and storing move different fields, so their order does not matter. -/
theorem storeReceived_countOutcome (s : State) (t : Fin 16) (k : FrameKind) (f : Frame) (o : FrameOutcome)
    (data : List Sample) :
    (s.countOutcome t k o).storeReceived f o data = (s.storeReceived f o data).countOutcome t k o := by
  unfold State.storeReceived
  split
  · split
    · rename_i i _
      have hk : (s.countOutcome t k o).transactionKind i = s.transactionKind i := rfl
      rw [hk]
      split <;> rfl
    · rfl
    · rfl
  · rfl

/-- Without the grant's own record, what a frame over leaves to its requester. -/
theorem frameOver_reads (s : State) (a : Attempt) (o : FrameOutcome) (data : List Sample) :
    (s.frameOver a o data).grant = s.grant ∧ (s.frameOver a o data).inFlight = s.inFlight ∧
      (s.frameOver a o data).duties = s.duties ∧ (s.frameOver a o data).engine = .interGap 1 := by
  unfold State.frameOver
  rw [storeReceived_frame]
  exact ⟨rfl, rfl, rfl, rfl⟩

theorem acts_dutyFrameEnd {s u : State} (e : u = { s with engine := .interGap 1 }) {n : Fin 32} {position : Nat}
    (f : Frame) (o : FrameOutcome) (data : List Sample) (hg : s.grant = some (.duty n position)) :
    Acts u (s.dutyFrameEnd n position f o data) := by
  subst e
  unfold State.dutyFrameEnd
  simp only
  split
  · rw [← runFailed_engine s (.interGap 1)]
    exact (Act.runFails { s with engine := .interGap 1 } n _ position hg).run
  · split
    · exact .refl
    · split
      · rw [← runFailed_engine s (.interGap 1)]
        exact (Act.runFails { s with engine := .interGap 1 } n _ position hg).run
      · unfold State.transactionComplete
        split
        · rw [← runSucceeded_engine s (.interGap 1)]
          exact (Act.runSucceeds { s with engine := .interGap 1 } n position hg).run
        · exact (Act.nextPosition { s with engine := .interGap 1 } n position 1 _ hg rfl (Nat.lt_of_not_le ‹_›)).run

theorem acts_channelFrameEnd {s u : State} (e : u = { s with engine := .interGap 1 }) {c : Fin 16} {acknowledge : Bool}
    (f : Frame) (o : FrameOutcome) (hg : s.grant = some (.channel c acknowledge)) :
    Acts u (s.channelFrameEnd c acknowledge f o) := by
  subst e
  have ends : ∀ x, Acts { s with engine := .interGap 1 } (s.unitEnd c x) := fun x => by
    rw [← unitEnd_engine s (.interGap 1)]
    exact (Act.unitEnds { s with engine := .interGap 1 } c x acknowledge hg).run
  unfold State.channelFrameEnd
  split
  · exact ends _
  · split
    · exact .refl
    · split
      · rename_i h
        simp only [Bool.and_eq_true, Bool.not_eq_true'] at h
        exact (Act.acknowledges { s with engine := .interGap 1 } c 1 (h.1 ▸ hg) rfl).run
      · exact ends _

theorem acts_requestFrameEnd {s u : State} (e : u = { s with engine := .interGap 1 }) {r : Request} (f : Frame)
    (o : FrameOutcome) (attempts : Nat) (hg : s.grant = some .host) (hi : s.inFlight = some r) :
    Acts u (s.requestFrameEnd r f o attempts) := by
  subst e
  unfold State.requestFrameEnd
  split
  · exact .refl
  · exact (Act.requestEnds { s with engine := .interGap 1 } r _ hg hi).run

theorem acts_requesterOutcome {s : State} {a : Attempt} (o : FrameOutcome) (data : List Sample)
    (h : s.engine = .attempt a) :
    Acts s ((s.countOutcome a.frame.target a.frame.kind o).requesterOutcome a o data) := by
  refine (acts_frameOver o data h).trans ?_
  obtain ⟨hg, hi, -, -⟩ := frameOver_reads s a o data
  unfold State.requesterOutcome
  simp only [storeReceived_countOutcome]
  change Acts { (s.storeReceived a.frame o data).countOutcome a.frame.target a.frame.kind o with engine := .interGap 1 } _
  split
  · rename_i n p _ hg'
    split
    · exact .refl
    · exact acts_dutyFrameEnd rfl _ o data (hg.trans hg')
  · rename_i c k _ hg'
    exact acts_channelFrameEnd rfl _ o (hg.trans hg')
  · rename_i r hg' hi'
    exact acts_requestFrameEnd rfl _ o _ (hg.trans hg') (hi.trans hi')
  · exact (Act.grantEnds _).run

theorem acts_softOutcome {s : State} {a : Attempt} (o : FrameOutcome) (data : List Sample)
    (h : s.engine = .attempt a) :
    Acts s ((s.countOutcome a.frame.target a.frame.kind o).softOutcome a o data) := by
  refine (acts_frameOver o data h).trans ?_
  unfold State.softOutcome
  simp only [storeReceived_countOutcome]
  split <;> exact (Act.quiet rfl).run

/-- A state whose engine stands in a gap has no frame on the bus. -/
theorem frameOnBus_of_gap {s : State} (h : s.engine = .gap ∨ ∃ k, s.engine = .interGap k) : s.frameOnBus = none := by
  unfold State.frameOnBus
  rcases h with h | ⟨k, h⟩ <;> rw [h]

theorem frameOnBus_runFailed (s : State) (n : Fin 32) (cause : Condition) (position : Nat) :
    (s.runFailed n cause position).frameOnBus = none :=
  frameOnBus_of_gap (.inl (runFailed_changes s n cause position).2.1)

theorem frameOnBus_unitEnd (s : State) (c : Fin 16) (failure : Condition) : (s.unitEnd c failure).frameOnBus = none := by
  rcases unitEnd_cases s c failure with ⟨_, e⟩ | ⟨_, e⟩ <;> exact frameOnBus_of_gap (.inl (by rw [e]))

/-- At a frame's outcome its requester leaves no frame on the bus. -/
theorem frameOnBus_requesterOutcome (s : State) (a : Attempt) (o : FrameOutcome) (data : List Sample) :
    (s.requesterOutcome a o data).frameOnBus = none := by
  unfold State.requesterOutcome
  simp only
  split
  · split
    · rfl
    · unfold State.dutyFrameEnd State.transactionComplete
      simp only
      split_ifs
      · exact frameOnBus_runFailed ..
      · rfl
      · exact frameOnBus_runFailed ..
      · rfl
      · rfl
  · unfold State.channelFrameEnd
    split_ifs
    · exact frameOnBus_unitEnd ..
    · rfl
    · rfl
    · exact frameOnBus_unitEnd ..
  · unfold State.requestFrameEnd
    split_ifs <;> rfl
  · rfl

theorem frameOnBus_softOutcome (s : State) (a : Attempt) (o : FrameOutcome) (data : List Sample) :
    (s.softOutcome a o data).frameOnBus = none := by
  unfold State.softOutcome
  simp only
  split <;> rfl

theorem acts_completeOffline {s : State} (t : Fin 16) (h : s.frameOnBus = none) : Acts s (s.completeOffline t) := by
  rcases completeOffline_cases s t with ⟨_, e⟩ | ⟨_, e⟩ <;> rw [e]
  refine (Act.goesOffline s t (.inr (by simp [State.frameTo, h]))).run.trans ?_
  refine (Act.targetMarks _ t { s.target t with state := .offline, offlinePending := false } (by simp)).run.trans ?_
  exact (Act.quiet (by simp [State.setTarget])).run

theorem acts_frameOutcome {s : State} {a : Attempt} (o : FrameOutcome) (data : List Sample)
    (h : s.engine = .attempt a) : Acts s (s.frameOutcome a o data) := by
  unfold State.frameOutcome
  simp only
  split
  · exact (acts_softOutcome o data h).trans (acts_completeOffline _ (frameOnBus_softOutcome _ a o data))
  · exact (acts_requesterOutcome o data h).trans (acts_completeOffline _ (frameOnBus_requesterOutcome _ a o data))

theorem acts_attemptOver {s : State} {a : Attempt} (o : FrameOutcome) (data : List Sample)
    (h : s.engine = .attempt a) : Acts s (s.attemptOver a o data) := by
  rcases attemptOver_cases s a o data with ⟨_, _, e⟩ | ⟨_, e⟩ <;> rw [e]
  · exact (Act.waitsToRetry s a h).run
  · exact acts_frameOutcome o data h

/-! ## Commands -/

theorem acts_besideCheck (s : State) : Acts s s.besideCheck := by
  have count : Acts s { s with freeCount := s.freeCount + 1 } := (Act.quiet rfl).run
  rcases besideCheck_cases s with e | e <;> rw [e]
  · exact count
  · exact count.trans (acts_firstCheck _)

theorem acts_atAccess (s : State) : Acts s s.atAccess := by
  rcases atAccess_cases s with ⟨_, e⟩ | ⟨_, e⟩ <;> rw [e]
  exact acts_besideCheck s

theorem acts_atOffline (s : State) : Acts s s.atOffline := by
  rcases atOffline_cases s with ⟨_, e⟩ | ⟨_, _, _, e⟩ <;> rw [e]
  exact acts_besideCheck s

theorem acts_armDuty (s : State) : Acts s s.ownArmDuty.state := by
  unfold State.ownArmDuty
  simp only
  split_ifs with _ ha hv
  · exact .refl
  · exact .refl
  · exact (Act.arms s _ (eq_false_of_ne_true ha) hv).run
  · exact .refl

theorem acts_disarmDuty (s : State) : Acts s s.disarmDuty.state := by
  unfold State.disarmDuty
  simp only
  split
  · exact .refl
  · split
    · exact .refl
    · split
      · exact (Act.dutyMarks s _ _ rfl).run
      · exact (Act.cuts s _ (.inl ‹_›)).run
    · exact (Act.disarms s _ (.inl ‹_›)).run
    · exact (Act.disarmsDue s _ ‹_›).run
    · exact (Act.disarms s _ (.inr ‹_›)).run

theorem acts_ownDisarmDuty (s : State) : Acts s s.ownDisarmDuty.state := (acts_firstCheck s).trans (acts_disarmDuty _)

theorem acts_startChannel (s : State) : Acts s s.ownStartChannel.state := by
  unfold State.ownStartChannel
  simp only
  split_ifs with _ ha hv
  · exact .refl
  · exact .refl
  · exact (Act.starts s _ (eq_false_of_ne_true ha) hv.1 hv.2).run
  · exact .refl

theorem acts_stopChannel (s : State) : Acts s s.ownStopChannel.state := by
  unfold State.ownStopChannel
  simp only
  split
  · exact .refl
  · split
    · exact (Act.stops s _ ‹_›).run
    · exact (Act.channelMarks s _ _ rfl).run
    all_goals exact .refl

theorem acts_triggerChannel (s : State) : Acts s s.ownTriggerChannel.state := by
  unfold State.ownTriggerChannel
  simp only
  split
  · exact .refl
  · exact (Act.arrives s _).run

theorem acts_targetOnline (s : State) : Acts s s.ownTargetOnline.state := by
  unfold State.ownTargetOnline
  simp only
  split_ifs with _ ho hv
  · exact .refl
  · exact .refl
  · exact (Act.comesOnline s _ (eq_false_of_ne_true ho) hv).run
  · exact .refl

theorem acts_targetOffline (s : State) : Acts s s.targetOffline.state := by
  unfold State.targetOffline
  simp only
  split
  · exact .refl
  · split
    · exact .refl
    · exact (Act.goesOffline s _ (.inl (by simp [State.online, *]))).run
    · split
      · exact (Act.targetMarks s _ _ rfl).run
      · exact (Act.goesOffline s _ (.inr (eq_false_of_ne_true ‹_›))).run

theorem acts_ownTargetOffline (s : State) : Acts s s.ownTargetOffline.state :=
  (acts_atOffline s).trans (acts_targetOffline _)

theorem acts_submit (s : State) : Acts s s.ownSubmit.state := by
  unfold State.ownSubmit
  split_ifs with hv hf
  · exact .refl
  · exact (Act.submits s hv hf).run
  · exact .refl

theorem acts_flushHost (s : State) : Acts s s.ownFlushHost.state := (Act.flushes s).run

theorem acts_quietEnter (s : State) : Acts s s.ownQuietEnter.state := by
  unfold State.ownQuietEnter
  split
  · exact (Act.busMoves s .draining (by simp)).run
  · exact .refl

theorem acts_exitBehindBroadcast (s : State) : Acts s s.exitBehindBroadcast.state := by
  unfold State.exitBehindBroadcast
  split
  · exact .refl
  · exact (Act.quiet rfl).run

theorem acts_wakeToExit {s : State} (h : s.busState = .quiet) : Acts s { s with busState := .waking, purpose := .exit } :=
  (Act.busMoves s .waking fun _ => .inl h).run.trans (Act.quiet rfl).run

theorem acts_returnToActive (s : State) :
    Acts s { s with busState := .active, purpose := .none, busStateCause := true } :=
  (Act.busMoves s .active (by simp)).run.trans (Act.quiet rfl).run

theorem acts_setPurpose (s : State) (p : Purpose) : Acts s { s with purpose := p } := (Act.quiet rfl).run

theorem acts_quietExit (s : State) : Acts s s.ownQuietExit.state := by
  have stale := acts_markStale s
  unfold State.ownQuietExit
  simp only
  split
  · exact .refl
  · split
    · exact acts_exitBehindBroadcast s
    · exact (Act.busMoves s .active (by simp)).run
  · rename_i hb
    exact stale.trans (acts_wakeToExit (by rw [State.markStale, mapDuties_frame]; exact hb))
  · split
    · exact .refl
    · exact stale.trans (acts_setPurpose _ _)
  · split
    · exact acts_exitBehindBroadcast s
    · exact stale.trans (acts_returnToActive _)

theorem acts_softReset (s : State) : Acts s s.softReset.state := by
  unfold State.softReset
  split
  · exact .refl
  · rename_i h
    simp only [Bool.or_eq_true, not_or, Option.not_isSome_iff_eq_none] at h
    exact (Act.softResets s h.1).run

theorem acts_ownSoftReset (s : State) : Acts s s.ownSoftReset.state := (acts_atAccess s).trans (acts_softReset _)

theorem acts_ite {c : Prop} [Decidable c] {f g : State → Reply} (hf : ∀ s, Acts s (f s).state)
    (hg : ∀ s, Acts s (g s).state) (s : State) : Acts s ((if c then f else g) s).state := by
  split
  · exact hf s
  · exact hg s

/-- What the owner of any code does, in the order of R180's table. -/
theorem acts_ownerOf (code : Byte) : ∀ s, Acts s (ownerOf code s).state :=
  acts_ite acts_armDuty <|
  acts_ite acts_ownDisarmDuty <|
  acts_ite acts_startChannel <|
  acts_ite acts_stopChannel <|
  acts_ite acts_triggerChannel <|
  acts_ite acts_targetOnline <|
  acts_ite acts_ownTargetOffline <|
  acts_ite acts_submit <|
  acts_ite acts_flushHost <|
  acts_ite acts_quietEnter <|
  acts_ite acts_quietExit <|
  acts_ite acts_ownSoftReset fun _ => .refl

theorem acts_conclude (r : Reply) : Acts r.state r.conclude := by
  rcases conclude_cases r with ⟨_, _, e⟩ | ⟨_, e⟩ <;> rw [e] <;> exact (Act.quiet rfl).run

theorem acts_command {owner : State → Reply} (ho : ∀ s, Acts s (owner s).state) (s : State) (code : Byte) :
    Acts s (s.command code owner) := by
  rcases command_cases s code owner with ⟨_, e⟩ | ⟨_, _, e⟩ | ⟨_, _, e⟩ <;> rw [e]
  · exact (Act.quiet rfl).run
  · have start : Acts s { s with cmdCode := code } := (Act.quiet rfl).run
    exact ((start.trans (ho _)).trans (acts_conclude _)).trans (acts_settle _)

theorem acts_writeCommand (s : State) (code : Byte) : Acts s (s.writeCommand code) :=
  acts_command (acts_ownerOf code) s code

/-! ## The window -/

theorem acts_answer (s : State) (b : Byte) : Acts s (s.answer b) := (Act.quiet rfl).run

theorem acts_readLow (s : State) (r : Reg16) : Acts s (s.readLow r) := (Act.quiet rfl).run

theorem acts_readHigh (s : State) (r : Reg16) : Acts s (s.readHigh r) := by
  unfold State.readHigh
  split <;> exact (Act.quiet rfl).run

theorem acts_collectMember (s : State) (m : Nat) : Acts s (s.collectMember m) := by
  unfold State.collectMember
  split_ifs
  · exact (Act.dutyMarks s _ _ rfl).run
  · exact (Act.channelMarks s _ _ rfl).run
  · exact (Act.targetMarks s _ _ rfl).run

theorem acts_readNoticeMember (s : State) : Acts s s.readNoticeMember := by
  unfold State.readNoticeMember
  split
  · exact (Act.quiet rfl).run
  · exact (acts_collectMember s _).trans (Act.quiet rfl).run

theorem acts_readRunning (s : State) (off : BitVec 6) : Acts s (s.readRunning off) := by
  unfold State.readRunning
  split
  all_goals first
    | with_reducible exact acts_answer s _
    | with_reducible exact acts_readLow s _
    | with_reducible exact acts_readHigh s _
    | with_reducible exact acts_readNoticeMember s
    | exact (Act.quiet rfl).run

theorem acts_windowRead (s : State) (off : BitVec 6) : Acts s (s.windowRead off) := by
  unfold State.windowRead
  split
  · exact acts_readRunning s off
  · unfold State.readInReset
    split <;> exact acts_answer s _

theorem acts_writeLow (s : State) (w : WReg16) (v : Byte) : Acts s (s.writeLow w v) := (Act.quiet rfl).run

theorem acts_offer (s : State) (w : WReg16) (v : Half) : Acts s (s.offer w v) := by
  cases w with
  | tmPtr => exact (Act.quiet rfl).run
  | intCause => exact (Act.quiet rfl).run
  | intEnable => exact (Act.setIntEnable s v).run
  | tickPeriod =>
    simp only [State.offer]
    split
    · exact (Act.setTickPeriod s v ‹_›).run
    · exact .refl
  | wakeUs =>
    simp only [State.offer]
    split
    · exact (Act.setWakeUs s v ‹_›).run
    · exact .refl
  | lineEdge => exact (Act.quiet rfl).run

theorem acts_writeHigh (s : State) (w : WReg16) (v : Byte) : Acts s (s.writeHigh w v) :=
  .trans (b := s.setHold w none) (Act.quiet rfl).run (acts_offer _ w _)

theorem acts_setTmPtr (s : State) (a : BitVec 13) : Acts s { s with tmPtr := a } := (Act.quiet rfl).run

theorem acts_writeTableData (s : State) (v : Byte) : Acts s (s.writeTableData v) := by
  refine (acts_firstCheck s).trans ?_
  unfold State.writeTableData
  simp only
  split
  · have put := (Act.hostByte _ _ v ‹_›).run
    exact (put.trans (Act.race _ s.tmPtr.toNat v).run).trans (acts_setTmPtr _ _)
  · exact (Act.quiet rfl).run

theorem acts_writeClock (s : State) (v : Byte) : Acts s (s.writeClock v) := by
  unfold State.writeClock
  split
  · exact (Act.setClock s v ‹_›).run
  · exact .refl

theorem acts_writeBusDiv (s : State) (v : Byte) : Acts s (s.writeBusDiv v) := by
  unfold State.writeBusDiv
  split
  · exact (acts_atAccess s).trans (Act.setBusDiv _ v ‹_›).run
  · exact .refl

theorem acts_writePullin (s : State) (v : Byte) : Acts s (s.writePullin v) := by
  have write : Acts s { s with pullin := v.getLsbD 0 } := (Act.quiet rfl).run
  exact write.trans (acts_settle _)

theorem acts_writeRunning (s : State) (off : BitVec 6) (v : Byte) : Acts s (s.writeRunning off v) := by
  unfold State.writeRunning
  split
  all_goals first
    | with_reducible exact acts_writeLow s _ v
    | with_reducible exact acts_writeHigh s _ v
    | with_reducible exact acts_writeCommand s v
    | with_reducible exact acts_writeTableData s v
    | with_reducible exact acts_writeClock s v
    | with_reducible exact acts_writeBusDiv s v
    | with_reducible exact acts_writePullin s v
    | with_reducible exact (Act.pops s).run
    | exact (Act.quiet rfl).run

theorem acts_windowWrite (s : State) (off : BitVec 6) (v : Byte) : Acts s (s.windowWrite off v) := by
  unfold State.windowWrite
  split
  · exact acts_writeRunning s off v
  · exact .refl

/-! ## Time -/

theorem acts_passMarks (s : State) (k : Nat) : Acts s (s.passMarks k) :=
  (Act.quiet (by rw [passMarks_frame])).run

theorem acts_endWait (s : State) : Acts s s.endWait := by
  unfold State.endWait
  simp only
  split
  · exact (Act.busMoves s .excursion (by simp)).run.trans (Act.quiet rfl).run
  · exact (Act.busMoves s .active (by simp)).run.trans (Act.quiet rfl).run

theorem acts_endWaitIfOver (s : State) : Acts s s.endWaitIfOver := by
  unfold State.endWaitIfOver
  split
  · exact acts_endWait s
  · exact .refl

theorem acts_mark (s : State) : Acts s s.mark :=
  ((acts_passMarks s 1).trans (acts_endWaitIfOver _)).trans (acts_settle _)

theorem acts_setPrescaler (s : State) (k : Nat) : Acts s { s with prescaler := k } := (Act.quiet rfl).run

theorem acts_chipClock (s : State) : Acts s s.chipClock := by
  unfold State.chipClock
  split_ifs
  · exact (acts_firstCheck s).trans (acts_setPrescaler _ _)
  · exact acts_mark s
  · exact .refl

theorem acts_setTicksDue (s : State) (k : Nat) : Acts s { s with ticksDue := k } := (Act.quiet rfl).run

theorem acts_takeTick (s : State) : Acts s s.takeTick := by
  refine .trans (b := if s.ticksDue = 0 then s.passToTick else s) ?_ (acts_setTicksDue _ _)
  split
  · rcases passToTick_cases s with ⟨_, e⟩ | ⟨_, _, e⟩ <;> rw [e]
    · exact acts_passMarks s _
    · exact (((acts_passMarks s _).trans (acts_endWait _)).trans (acts_settle _)).trans (acts_passMarks _ _)
  · exact .refl

theorem acts_tickDuty (s : State) (n : Fin 32) : Acts s (s.tickDuty n) := by
  unfold State.tickDuty
  simp only
  split
  · rename_i h
    split
    · exact (Act.expires s n (by simp only [Bool.and_eq_true] at h; exact h.1)).run
    · exact (Act.dutyMarks s n _ rfl).run
  · exact .refl

theorem acts_upkeepTick (s : State) : Acts s s.upkeepTick :=
  (acts_mapDuties s _ fun s n => .dutyMarks s n _ rfl).trans (acts_foldl acts_tickDuty allDuties _)

theorem acts_takeArrival (s : State) (c : Fin 16) : Acts s (s.takeArrival c) :=
  (Act.arrives s c).run.trans (acts_react _)

theorem acts_edgeArrivals (s : State) (k : Fin 8) : Acts s (s.edgeArrivals k) := by
  have count : Acts s { s with freeCount := s.freeCount + 1 } := (Act.quiet rfl).run
  exact (count.trans (acts_settle _)).trans (acts_foldl acts_takeArrival _ _)

/-! ## The bus and the quiet controller -/

theorem acts_cutRun {s : State} {n : Fin 32} {position : Nat} (h : s.grant = some (.duty n position)) :
    Acts s (s.cutRun n).completeCommand :=
  (Act.cuts s n (.inr ⟨position, h⟩)).run.trans (Act.quiet rfl).run

theorem acts_continueGrant (s : State) : Acts s s.continueGrant := by
  unfold State.continueGrant
  split
  · split
    · exact acts_cutRun ‹_›
    · exact acts_startWork s
  · exact acts_startWork s

/-- The engine idles, in the gap or free, where it carried no work. -/
theorem acts_idle {s : State} {e : BusEngine} (h : s.engine = e) (he : e = .gap ∨ (∃ b, e = .broadcast b)) (f : BusEngine)
    (hf : f = .gap ∨ f = .free) : Acts s { s with engine := f } :=
  (Act.idles s f (by unfold State.engineWorks; rw [h]; rcases he with rfl | ⟨b, rfl⟩ <;> rfl) hf).run

theorem acts_quietBroadcastEnd {s : State} (h : s.engine = .broadcast .quiet) : Acts s s.quietBroadcastEnd := by
  have gap : Acts s { s with engine := .gap } := acts_idle h (.inr ⟨_, rfl⟩) _ (.inl rfl)
  unfold State.quietBroadcastEnd
  simp only
  split
  · refine (gap.trans (acts_markStale _)).trans (Act.busMoves _ .waking fun _ => .inr (.inr ?_)).run
    rw [State.markStale, mapDuties_frame]
    rfl
  · exact (gap.trans (Act.busMoves _ .quiet fun _ => .inr (.inr rfl)).run).trans (Act.quiet rfl).run

/-! ## Every row and every step -/

/-- A row taken where its guard holds performs acts, and elsewhere leaves the state. -/
theorem acts_guarded {s u : State} {c : Prop} [Decidable c] (hu : c → Acts s u) :
    ∃ t, (if c then .next u else noEvent s) = (Host.Outcome.next t : Host.Outcome State Fault Refusal) ∧ Acts s t := by
  split
  · exact ⟨u, rfl, hu ‹_›⟩
  · exact ⟨s, rfl, .refl⟩

theorem acts_execAttemptEnd (s : State) (status : Sample) (data : List Sample) :
    ∃ t, execAttemptEnd status data s = .next t ∧ Acts s t := by
  unfold execAttemptEnd
  simp only
  split
  · exact ⟨_, rfl, ((acts_firstCheck s).trans (acts_attemptOver _ _ ‹_›)).trans (acts_settle _)⟩
  · exact ⟨_, rfl, acts_firstCheck s⟩

theorem acts_execReadyTimeout (s : State) : ∃ t, execReadyTimeout s = .next t ∧ Acts s t := by
  unfold execReadyTimeout
  simp only
  split
  · split
    · exact ⟨_, rfl, ((acts_firstCheck s).trans (acts_attemptOver _ _ ‹_›)).trans (acts_settle _)⟩
    · exact ⟨_, rfl, acts_firstCheck s⟩
  · exact ⟨_, rfl, acts_firstCheck s⟩

theorem acts_execInterFrameGapEnd (s : State) : ∃ t, execInterFrameGapEnd s = .next t ∧ Acts s t := by
  unfold execInterFrameGapEnd
  split
  · split
    · exact ⟨s, rfl, .refl⟩
    · exact ⟨_, rfl, (acts_continueGrant s).trans (acts_settle _)⟩
  · exact ⟨s, rfl, .refl⟩

theorem acts_execRetryGapEnd (s : State) : ∃ t, execRetryGapEnd s = .next t ∧ Acts s t := by
  unfold execRetryGapEnd
  split
  · exact ⟨_, rfl, (Act.retries s _ ‹_›).run⟩
  · exact ⟨s, rfl, .refl⟩

/-- A duty whose cut is due holds the grant. -/
theorem grant_of_cutDue {s : State} {n : Fin 32} (h : s.cutDue = some n) :
    ∃ position, s.grant = some (.duty n position) := by
  unfold State.cutDue at h
  split at h
  · split at h
    · cases h
      exact ⟨_, ‹_›⟩
    · cases h
  · cases h

theorem acts_execRunCut (s : State) : ∃ t, execRunCut s = .next t ∧ Acts s t := by
  unfold execRunCut
  split
  · obtain ⟨_, hg⟩ := grant_of_cutDue ‹_›
    exact ⟨_, rfl, (acts_cutRun hg).trans (acts_settle _)⟩
  · exact ⟨s, rfl, .refl⟩

theorem acts_execTriggerLineEdge (s : State) (k : Fin 8) (level : Bool) :
    ∃ t, execTriggerLineEdge k level s = .next t ∧ Acts s t := by
  refine acts_guarded fun _ => ?_
  have line : Acts s (s.setLine k level) := (Act.quiet rfl).run
  split
  · exact line.trans (acts_edgeArrivals _ k)
  · exact line.trans (acts_settle _)

/-- Every row, in every state, performs a run of elementary acts. -/
theorem exec_acts (c : Instr) (s : State) : ∃ t, exec c s = .next t ∧ Acts s t := by
  cases c with
  | fullReset => exact ⟨_, rfl, (Act.fullResets s).run⟩
  | resetRelease => exact acts_guarded fun h => (Act.releases s h).run
  | clearEnd lines => exact acts_guarded fun h => (Act.clears s lines h).run
  | accessDuringClear access =>
    cases access with
    | read off => exact ⟨_, rfl, acts_windowRead s off⟩
    | write off v => exact ⟨_, rfl, acts_windowWrite s off v⟩
  | resetBroadcast => exact acts_guarded fun h => (Act.broadcasts s .reset (.inl h)).run
  | resetBroadcastEnd => exact acts_guarded fun h => acts_idle h (.inr ⟨_, rfl⟩) _ (.inl rfl)
  | microsecondMark => exact acts_guarded fun _ => acts_mark s
  | tick =>
    exact acts_guarded fun _ =>
      (((acts_takeTick s).trans (acts_upkeepTick _)).trans (acts_endWaitIfOver _)).trans (acts_settle _)
  | expiry n => exact acts_guarded fun h => (Act.expires s n h.2.1).run.trans (acts_settle _)
  | triggerLineEdge k level => exact acts_execTriggerLineEdge s k level
  | armDuty => exact ⟨_, rfl, acts_command acts_armDuty s _⟩
  | disarmDuty => exact ⟨_, rfl, acts_command acts_ownDisarmDuty s _⟩
  | runCut => exact acts_execRunCut s
  | startChannel => exact ⟨_, rfl, acts_command acts_startChannel s _⟩
  | stopChannel => exact ⟨_, rfl, acts_command acts_stopChannel s _⟩
  | triggerChannel => exact ⟨_, rfl, acts_command acts_triggerChannel s _⟩
  | targetOnline => exact ⟨_, rfl, acts_command acts_targetOnline s _⟩
  | targetOffline => exact ⟨_, rfl, acts_command acts_ownTargetOffline s _⟩
  | submit => exact ⟨_, rfl, acts_command acts_submit s _⟩
  | flushHost => exact ⟨_, rfl, acts_command acts_flushHost s _⟩
  | quietEnter => exact ⟨_, rfl, acts_command acts_quietEnter s _⟩
  | quietExit => exact ⟨_, rfl, acts_command acts_quietExit s _⟩
  | softReset => exact ⟨_, rfl, acts_command acts_ownSoftReset s _⟩
  | softResetEffects =>
    exact acts_guarded fun h =>
      ((Act.softResets s h.2.1).run.trans (Act.quiet rfl).run).trans (acts_settle (State.completeCommand _))
  | badCommand code => exact ⟨_, rfl, acts_writeCommand s code⟩
  | collision code => exact ⟨_, rfl, acts_writeCommand s code⟩
  | tmDataRead => exact ⟨_, rfl, acts_windowRead s _⟩
  | noticeMemberRead => exact ⟨_, rfl, acts_windowRead s _⟩
  | lowByteRead r => exact ⟨_, rfl, acts_windowRead s _⟩
  | highByteRead r => exact ⟨_, rfl, acts_windowRead s _⟩
  | tmPtrWrite v => exact ⟨_, rfl, acts_windowWrite s _ v⟩
  | tmDataWrite v => exact ⟨_, rfl, acts_windowWrite s _ v⟩
  | cplPop v => exact ⟨_, rfl, acts_windowWrite s _ v⟩
  | intCauseWrite v => exact ⟨_, rfl, acts_windowWrite s _ v⟩
  | intEnableWrite v => exact ⟨_, rfl, acts_windowWrite s _ v⟩
  | clockMhzWrite v => exact ⟨_, rfl, acts_windowWrite s _ v⟩
  | tickPeriodWrite v => exact ⟨_, rfl, acts_windowWrite s _ v⟩
  | wakeUsWrite v => exact ⟨_, rfl, acts_windowWrite s _ v⟩
  | busDivWrite v => exact ⟨_, rfl, acts_windowWrite s _ v⟩
  | pullinWrite v => exact ⟨_, rfl, acts_windowWrite s _ v⟩
  | lineEdgeWrite v => exact ⟨_, rfl, acts_windowWrite s _ v⟩
  | lowByteWrite r v => exact ⟨_, rfl, acts_windowWrite s _ v⟩
  | registerWrite off v => exact ⟨_, rfl, acts_windowWrite s off v⟩
  | gapEnd => exact acts_guarded fun h => (acts_idle h (.inl rfl) .free (.inr rfl)).trans (acts_settle _)
  | interFrameGapEnd => exact acts_execInterFrameGapEnd s
  | readyTimeout => exact acts_execReadyTimeout s
  | attemptEnd status data => exact acts_execAttemptEnd s status data
  | retryGapEnd => exact acts_execRetryGapEnd s
  | quietBroadcastEnd => exact acts_guarded fun h => (acts_quietBroadcastEnd h).trans (acts_settle _)
  | wakeBroadcastEnd =>
    exact acts_guarded fun h => (acts_idle h (.inr ⟨_, rfl⟩) .gap (.inl rfl)).trans (Act.quiet rfl).run
  | wakeWaitEnd => exact acts_guarded fun _ => ((acts_passMarks s _).trans (acts_endWait _)).trans (acts_settle _)

/-- A step is a run of elementary acts: those of the command at the front, or of a chip clock. -/
theorem step_acts {s t : State} (h : step s = .next t) : Acts s t := by
  unfold step at h
  split at h
  · cases h
    exact acts_chipClock s
  · rename_i c rest _
    have take : Acts s { s with pending := rest } := (Act.quiet rfl).run
    obtain ⟨u, hu, acts⟩ := exec_acts c { s with pending := rest }
    rw [hu] at h
    cases h
    exact take.trans acts

/-- An invariant that every act keeps, every step keeps. -/
theorem step_keeps {P : State → Prop} (hP : ∀ {s t}, Act s t → P s → P t) {s t : State} (h : step s = .next t)
    (hs : P s) : P t :=
  (step_acts h).keeps hP hs

end Sys2Proof.Machine
end

/-!
SUPPORT. The frames of the conditional operations and what the arbiter's choice says of a channel or a request.
-/

section
namespace Sys2Proof.Machine

open Sys2Proof

/-! ## Frames -/

/-- The end of a failed run changes the duty file, the due queue, the grant and the bus engine. -/
theorem runFailed_frame (s : State) (n : Fin 32) (cause : Condition) (position : Nat) :
    let t := s.runFailed n cause position
    t = { s with duties := t.duties, dueQueue := t.dueQueue, grant := none, engine := .gap } := by
  unfold State.runFailed
  simp only
  split
  · rfl
  · rcases settleDuty_cases s n { (s.duty n).fail cause position with held := true } with ⟨_, h⟩ | ⟨_, h⟩ <;>
      simp only [h] <;> rfl

/-- The end of a unit changes the channel's record, the grant, the bus engine and the command unit. -/
theorem unitEnd_frame (s : State) (c : Fin 16) (failure : Condition) :
    let t := s.unitEnd c failure
    t = { s with channels := s.channels.set c (s.unitRecord c failure), grant := none, engine := .gap
                 unit := t.unit, cmdResult := t.cmdResult, commandDone := t.commandDone } := by
  rcases unitEnd_cases s c failure with ⟨_, e⟩ | ⟨_, e⟩ <;> simp only [e] <;> rfl

theorem channel_unitEnd (s : State) (c e : Fin 16) (failure : Condition) :
    (s.unitEnd c failure).channel e = if e = c then s.unitRecord c failure else s.channel e := by
  rw [unitEnd_frame]
  exact vector_get_set ..

/-- Disposal changes the two host queues and the host wait count. -/
theorem disposeHeads_frame (s : State) :
    let t := s.disposeHeads
    t = { s with completions := t.completions, requests := t.requests, hostWait := t.hostWait } := by
  rcases disposeHeads_cases s with ⟨_, e⟩ | e <;> simp only [e]

/-- `s` with channel `c` BUSY under its grant, before the address check (R87, R89, R124). -/
def State.channelGranted (s : State) (c : Fin 16) : State :=
  { s.setChannel c { s.channel c with state := .busy } with
    grant := some (.channel c false)
    channelPointer := c
    hostWait := if s.requests.isEmpty then s.hostWait else s.hostWait + 1 }

/-- A granted channel goes on to its target check, or its unit ends by the address check. -/
theorem grantChannel_cases (s : State) (c : Fin 16) :
    ((s.channelGranted c).unitInRange c = true ∧ s.grantChannel c = { s.channelGranted c with engine := .granted }) ∨
      ((s.channelGranted c).unitInRange c = false ∧ s.grantChannel c = (s.channelGranted c).unitEnd c .memoryRange) := by
  cases h : (s.channelGranted c).unitInRange c with
  | true => exact .inl ⟨rfl, if_pos h⟩
  | false => exact .inr ⟨rfl, if_neg (by rw [Bool.not_eq_true]; exact h)⟩

/-- A granted channel changes its own record, the grant, the pointer, the host wait count and the bus engine, and the
command unit where a stop was pending. -/
theorem grantChannel_frame (s : State) (c : Fin 16) :
    let t := s.grantChannel c
    t = { s with
      channels := t.channels, grant := t.grant, channelPointer := c, engine := t.engine
      hostWait := if s.requests.isEmpty then s.hostWait else s.hostWait + 1
      unit := t.unit, cmdResult := t.cmdResult, commandDone := t.commandDone } := by
  rcases grantChannel_cases s c with ⟨_, e⟩ | ⟨_, e⟩ <;> simp only [e]
  · rfl
  · rw [unitEnd_frame]
    rfl

/-- A granted request changes the request queue, its target's sync mark, the grant and the bus engine. -/
theorem grantHost_frame (s : State) (r : Request) :
    let t := s.grantHost r
    t = { s with
      requests := s.requests.tail, inFlight := some r, hostWait := 0, grant := some .host, engine := .granted
      targets := t.targets } := by
  unfold State.grantHost State.forceSync
  simp only
  split <;> rfl

/-- The bus engine's soft-reset effect: the grant ends. -/
theorem softResetBus_frame (s : State) : s.softResetBus = { s with grant := none, engine := s.softResetBus.engine } := by
  unfold State.softResetBus
  split <;> rfl

/-- The quiet controller's soft-reset effect moves the bus state and the purpose. -/
theorem softResetQuiet_frame (s : State) :
    s.softResetQuiet = { s with busState := s.softResetQuiet.busState, purpose := s.softResetQuiet.purpose } := by
  unfold State.softResetQuiet
  split <;> rfl

theorem duty_of_duties {s t : State} (h : t.duties = s.duties) (n : Fin 32) : t.duty n = s.duty n := by
  unfold State.duty
  rw [h]

theorem channel_of_channels {s t : State} (h : t.channels = s.channels) (c : Fin 16) : t.channel c = s.channel c := by
  unfold State.channel
  rw [h]

@[simp] theorem duty_mapChannels (s : State) (f : ChannelRec → ChannelRec) (n : Fin 32) :
    (s.mapChannels f).duty n = s.duty n :=
  duty_of_duties (by rw [mapChannels_frame]) n

@[simp] theorem duty_mapTargets (s : State) (f : TargetRec → TargetRec) (n : Fin 32) :
    (s.mapTargets f).duty n = s.duty n :=
  duty_of_duties (by rw [mapTargets_frame]) n

@[simp] theorem channel_mapDuties (s : State) (f : DutyRec → DutyRec) (c : Fin 16) :
    (s.mapDuties f).channel c = s.channel c :=
  channel_of_channels (by rw [mapDuties_frame]) c

@[simp] theorem channel_mapTargets (s : State) (f : TargetRec → TargetRec) (c : Fin 16) :
    (s.mapTargets f).channel c = s.channel c :=
  channel_of_channels (by rw [mapTargets_frame]) c

theorem records_frame {s a b t : State} (ha : a = { s with duties := a.duties })
    (hb : b = { a with channels := b.channels }) (ht : t = { b with targets := t.targets }) :
    t = { s with duties := t.duties, channels := t.channels, targets := t.targets } := by
  rw [ht, hb, ha]

/-- The records after the soft-reset effects, before the queues, the bus and the window take theirs. -/
def State.softResetRecords (s : State) : State :=
  ((s.softResetRequests.mapDuties DutyRec.softReset).mapChannels ChannelRec.softReset).mapTargets TargetRec.clearNotices

theorem softResetRecords_frame (s : State) :
    s.softResetRecords = { s.softResetRequests with
      duties := s.softResetRecords.duties, channels := s.softResetRecords.channels
      targets := s.softResetRecords.targets } :=
  records_frame (mapDuties_frame ..) (mapChannels_frame ..) (mapTargets_frame ..)

theorem softResetEffects_eq (s : State) :
    s.softResetEffects = { s.softResetRecords.softResetBus.softResetQuiet.softResetWindow with
      dueQueue := [], channelPointer := 15, hostWait := 0 } := by
  unfold State.softResetEffects State.softResetRecords
  rfl

theorem softResetTail_frame {r u b q : State} (hu : u = { r with
      duties := u.duties, channels := u.channels, targets := u.targets })
    (hb : b = { u with grant := none, engine := b.engine })
    (hq : q = { b with busState := q.busState, purpose := q.purpose }) :
    { q.softResetWindow with dueQueue := [], channelPointer := 15, hostWait := 0 } = { r with
      duties := u.duties, channels := u.channels, targets := u.targets, grant := none, engine := q.engine
      busState := q.busState, purpose := q.purpose, dueQueue := [], channelPointer := 15, hostWait := 0
      commandDone := false, busStateCause := false, guardCause := false, collisionCause := false
      readyCause := false } := by
  rw [hq, hb, hu]
  rfl

theorem softResetRequests_eq (s : State) : s.softResetRequests = { s with
    requests := [], inFlight := none, softEnd := none, hostWait := 0
    completions := s.completions ++ s.softCompletion ++ s.requests.map (fun r => r.without .flushed) } := by
  unfold State.softResetRequests State.flushRequests State.setRequests State.appendCompletions
  rfl

/-- The soft-reset effects: every request ends in a completion record, the due queue is empty, and no grant is in force. -/
theorem softResetEffects_frame (s : State) : ∃ engine busState purpose,
    s.softResetEffects = { s with
      requests := [], inFlight := none, softEnd := none, hostWait := 0
      completions := s.completions ++ s.softCompletion ++ s.requests.map (fun r => r.without .flushed)
      grant := none, engine := engine, dueQueue := [], channelPointer := 15
      duties := s.softResetRecords.duties, channels := s.softResetRecords.channels
      targets := s.softResetRecords.targets, busState := busState, purpose := purpose
      commandDone := false, busStateCause := false, guardCause := false, collisionCause := false
      readyCause := false } := by
  have h := softResetTail_frame (softResetRecords_frame s) (softResetBus_frame _) (softResetQuiet_frame _)
  rw [← softResetEffects_eq, softResetRequests_eq] at h
  exact ⟨_, _, _, h⟩

theorem duty_softResetEffects (s : State) (n : Fin 32) : s.softResetEffects.duty n = (s.duty n).softReset := by
  have h : s.softResetRecords.duty n = (s.duty n).softReset := by
    simp only [State.softResetRecords, duty_mapTargets, duty_mapChannels, duty_mapDuties]
    rw [duty_of_duties (t := s.softResetRequests) (s := s) (by rw [softResetRequests_eq])]
  rw [← h]
  obtain ⟨_, _, _, e⟩ := softResetEffects_frame s
  exact duty_of_duties (by rw [e]) n

theorem channel_softResetEffects (s : State) (c : Fin 16) : s.softResetEffects.channel c = (s.channel c).softReset := by
  have h : s.softResetRecords.channel c = (s.channel c).softReset := by
    simp only [State.softResetRecords, channel_mapTargets, channel_mapChannels, channel_mapDuties]
    rw [channel_of_channels (t := s.softResetRequests) (s := s) (by rw [softResetRequests_eq])]
  rw [← h]
  obtain ⟨_, _, _, e⟩ := softResetEffects_frame s
  exact channel_of_channels (by rw [e]) c

/-- A full reset keeps the records, their notices apart, and takes every other value of reset. -/
theorem fullReset_frame (s : State) :
    let t := s.fullReset
    t = { State.reset with
      targets := t.targets, channels := t.channels, duties := t.duties, mem := s.mem, hostData := s.hostData
      freeCount := s.freeCount, pending := s.pending } := by
  simp only
  unfold State.fullReset
  simp only
  rw [mapDuties_frame, mapChannels_frame, mapTargets_frame]

theorem duty_fullReset (s : State) (n : Fin 32) : s.fullReset.duty n = (s.duty n).clearNotices := by
  unfold State.fullReset
  simp only [duty_mapDuties, duty_mapChannels, duty_mapTargets]
  rfl

theorem channel_fullReset (s : State) (c : Fin 16) : s.fullReset.channel c = (s.channel c).clearNotices := by
  unfold State.fullReset
  simp only [channel_mapDuties, channel_mapChannels, channel_mapTargets]
  rfl

end Sys2Proof.Machine
end

/-!
SUPPORT. The end of an event changes the work only.
-/

section
namespace Sys2Proof.Machine

open Sys2Proof

/-- From `s` to `t` only the fields of the work moved. -/
def State.WorkMoves (s t : State) : Prop := t = s.withWorkOf t

namespace State.WorkMoves

theorem refl (s : State) : s.WorkMoves s := rfl

theorem trans {s t u : State} (h1 : s.WorkMoves t) (h2 : t.WorkMoves u) : s.WorkMoves u := by
  unfold State.WorkMoves at *
  rw [h2, h1]
  rfl

theorem haltDownChannels (s : State) : s.WorkMoves s.haltDownChannels := by
  have h := (haltDownChannels_reads s).1
  generalize s.haltDownChannels = t at h ⊢
  unfold State.WorkMoves
  rw [h]
  rfl

theorem disposeHeads (s : State) : s.WorkMoves s.disposeHeads := by
  unfold State.WorkMoves
  rw [disposeHeads_frame]
  rfl

theorem unitEnd (s : State) (c : Fin 16) (failure : Condition) : s.WorkMoves (s.unitEnd c failure) := by
  unfold State.WorkMoves
  rw [unitEnd_frame]
  rfl

theorem runFailed (s : State) (n : Fin 32) (cause : Condition) (position : Nat) :
    s.WorkMoves (s.runFailed n cause position) := by
  unfold State.WorkMoves
  rw [runFailed_frame]
  rfl

theorem startWork (s : State) : s.WorkMoves s.startWork := by
  rcases startWork_cases s with ⟨n, p, _, e⟩ | ⟨c, k, _, e⟩ | ⟨r, _, _, e⟩ | ⟨_, e⟩ <;> rw [e]
  · rcases startTransaction_cases s n p with ⟨_, e⟩ | ⟨_, e⟩ <;> rw [e]
    · rfl
    · exact runFailed ..
  · rcases startUnitFrame_cases s c k with ⟨_, e⟩ | ⟨_, e⟩ <;> rw [e]
    · rfl
    · exact unitEnd ..
  · rcases startRequestFrame_cases s r with ⟨_, e⟩ | ⟨_, e⟩ <;> rw [e] <;> rfl
  · rfl

theorem firstCheck (s : State) : s.WorkMoves s.firstCheck := by
  unfold State.firstCheck
  split
  · exact startWork s
  · exact refl s

theorem arbitrate (s : State) : s.WorkMoves s.arbitrate := by
  rcases arbitrate_cases s with ⟨_, e⟩ | ⟨_, _, ⟨k, _, e⟩ | ⟨_, b, _, e⟩ | ⟨_, _, e⟩⟩ <;> rw [e]
  · exact refl s
  · cases k with
    | duty n => rfl
    | channel c =>
      unfold State.WorkMoves
      rw [State.take, grantChannel_frame]
      rfl
    | host r =>
      unfold State.WorkMoves
      rw [State.take, grantHost_frame]
      rfl
  · rfl
  · exact refl s

theorem decisions (s : State) : s.WorkMoves s.decisions := by
  have excursion : s.WorkMoves s.startExcursion := by
    rcases startExcursion_cases s with ⟨_, _, e⟩ | ⟨_, e⟩ <;> rw [e] <;> rfl
  exact (excursion.trans (arbitrate _)).trans (disposeHeads _)

/-- The end of an event moves fields of the work only. -/
theorem settle (s : State) : s.WorkMoves s.settle :=
  (((haltDownChannels s).trans (disposeHeads _)).trans (firstCheck _)).trans (decisions _)

end State.WorkMoves

end Sys2Proof.Machine
end

section
namespace Sys2Proof.Machine

open Sys2Proof

/-! ## Choices other than a duty -/

/-- A channel or a request is chosen by the middle classes only (R122). -/
theorem middleClasses_of_choice {s : State} {k : Candidate} (h : s.choice = some k) (hk : ∀ n, k ≠ .duty n) :
    s.middleClasses = some k := by
  have noDuty : ∀ o : Option (Fin 32), o.map Candidate.duty ≠ some k := fun o e => by
    obtain ⟨n, _, e⟩ := Option.map_eq_some_iff.mp e
    exact hk n e.symm
  unfold State.choice at h
  split at h
  · unfold State.activeChoice at h
    simp only [Option.or_eq_some_iff, noDuty, false_or, and_false, or_false] at h
    exact h.2
  · simp [Option.or_eq_some_iff, noDuty] at h
  · exact absurd h (noDuty _)
  · cases h
  · cases h

/-- The channel class yields to the host class at a host wait count of 4 (R122). -/
theorem choice_channel {s : State} {c : Fin 16} (h : s.choice = some (.channel c)) :
    s.hasTrigger c = true ∧ (s.hostWait = 4 → s.requests = []) := by
  have hm := middleClasses_of_choice h (by simp)
  unfold State.middleClasses at hm
  have hc : s.channelCandidate = some c → s.hasTrigger c = true := fun e =>
    List.find?_some (p := fun c => s.hasTrigger c) e
  simp only at hm
  split at hm
  · simp only [Option.or_eq_some_iff, Option.map_eq_some_iff, Option.map_eq_none_iff, Candidate.channel.injEq, reduceCtorEq,
      and_false, exists_false, false_or, exists_eq_right, List.head?_eq_none_iff] at hm
    exact ⟨hc hm.2, fun _ => hm.1⟩
  · simp only [Option.or_eq_some_iff, Option.map_eq_some_iff, Candidate.channel.injEq, reduceCtorEq,
      and_false, exists_false, or_false, exists_eq_right] at hm
    exact ⟨hc hm, fun h4 => absurd h4 ‹_›⟩

/-- The request that is chosen is the head of the queue (R105). -/
theorem choice_host {s : State} {r : Request} (h : s.choice = some (.host r)) : ∃ rest, s.requests = r :: rest := by
  have hm := middleClasses_of_choice h (by simp)
  have hr : s.requests.head? = some r := by
    unfold State.middleClasses at hm
    simp only at hm
    split at hm <;> simp only [Option.or_eq_some_iff, Option.map_eq_some_iff, Candidate.host.injEq, reduceCtorEq,
      and_false, exists_false, or_false, false_or, exists_eq_right] at hm
    · exact hm
    · exact hm.2
  exact ⟨_, List.eq_cons_of_mem_head? hr⟩

/-! ## Host slots (R103) -/

theorem slotsHeld_disposeHeads (s : State) : s.disposeHeads.slotsHeld = s.slotsHeld := by
  have hl := congrArg List.length (disposed_append_remaining s)
  rw [List.length_append] at hl
  rcases disposeHeads_cases s with ⟨_, e⟩ | e <;> rw [e]
  simp only [State.slotsHeld, List.length_append, List.length_map]
  omega

theorem slotsHeld_flushRequests (s : State) : s.flushRequests.slotsHeld = s.slotsHeld := by
  simp only [State.slotsHeld, State.flushRequests, setRequests_reads, appendCompletions_reads, List.length_append,
    List.length_map, List.length_nil]
  omega

theorem slotsHeld_requestEnd {s : State} {r : Request} (c : Completion) (h : s.inFlight = some r) :
    (s.requestEnd c).slotsHeld = s.slotsHeld := by
  simp [State.slotsHeld, State.requestEnd, h]
  omega

theorem slotsHeld_softResetEffects (s : State) : s.softResetEffects.slotsHeld = s.slotsHeld := by
  obtain ⟨_, _, _, e⟩ := softResetEffects_frame s
  rw [e]
  cases h : s.inFlight <;> simp [State.slotsHeld, State.softCompletion, h] <;> omega

theorem slotsHeld_popCompletion_le (s : State) : s.popCompletion.slotsHeld ≤ s.slotsHeld :=
  Nat.add_le_add_left (by simp [State.popCompletion]) _

theorem slotsHeld_grantHost_le {s : State} {r : Request} (h : s.choice = some (.host r)) :
    (s.grantHost r).slotsHeld ≤ s.slotsHeld := by
  obtain ⟨rest, hq⟩ := choice_host h
  rw [grantHost_frame]
  simp only [State.slotsHeld, hq, List.length_cons, List.tail_cons, Option.isSome_some, if_true]
  omega

/-- SUBMIT is accepted only while a slot is free. -/
theorem slotsHeld_submit {s : State} (r : Request) (h : s.slotsFree ≠ 0) :
    { s with requests := s.requests ++ [r] }.slotsHeld ≤ 8 := by
  have h' : 8 - s.slotsHeld ≠ 0 := h
  simp only [State.slotsHeld, List.length_append, List.length_singleton] at h' ⊢
  omega

/-! ## The host wait count (R124) -/

theorem hostWaitBounded_of_zero {s : State} (h : s.hostWait = 0) : s.hostWaitBounded := ⟨by omega, fun _ => h⟩

theorem hostWaitBounded_disposeHeads {s : State} (hs : s.hostWaitBounded) : s.disposeHeads.hostWaitBounded := by
  rcases disposeHeads_cases s with ⟨_, e⟩ | e <;> rw [e]
  · exact hs
  · cases hq : s.remainingRequests with
    | nil => exact hostWaitBounded_of_zero rfl
    | cons r q => exact ⟨hs.1, fun h => by cases h⟩

/-- A channel is granted ahead of a waiting request only below a count of 4. -/
theorem hostWaitBounded_grantChannel {s : State} {c : Fin 16} (hc : s.choice = some (.channel c))
    (hs : s.hostWaitBounded) : (s.grantChannel c).hostWaitBounded := by
  have h4 := (choice_channel hc).2
  have hle := hs.1
  rw [grantChannel_frame]
  cases hq : s.requests with
  | nil => exact ⟨by simpa using hle, fun _ => by simpa using hs.2 hq⟩
  | cons r q =>
    have hne : s.hostWait ≠ 4 := fun e => by rw [hq] at h4; cases h4 e
    exact ⟨by simp only [List.isEmpty_cons, Bool.false_eq_true, if_false]; omega, fun h => by simp at h⟩

/-! ## PENDING (R76) -/

/-- A channel record whose PENDING is at most 2, and 0 outside WAITING and BUSY. -/
def ChannelRec.pendingFits (r : ChannelRec) : Prop := r.pending.toNat ≤ 2 ∧ (r.active = false → r.pending = 0)

theorem pendingBounded_iff (s : State) : s.pendingBounded ↔ ∀ c, (s.channel c).pendingFits := Iff.rfl

theorem pendingFits_of_zero {r : ChannelRec} (h : r.pending = 0) : r.pendingFits := ⟨by simp [h], fun _ => h⟩

theorem pendingFits_of_active {r : ChannelRec} (hp : r.pending.toNat ≤ 2) (ha : r.active = true) : r.pendingFits :=
  ⟨hp, fun h => by rw [ha] at h; cases h⟩

theorem pendingFits_arrive {r : ChannelRec} (h : r.pendingFits) : r.arrive.pendingFits := by
  unfold ChannelRec.arrive ChannelRec.arrival
  by_cases ha : r.active = true
  · by_cases hp : r.pending.toNat ≤ 1
    · simp only [ha, hp, if_true]
      exact pendingFits_of_active (by simp only [BitVec.toNat_add]; simp; omega) ha
    · simp only [ha, hp, if_true, if_false]
      split
      · exact pendingFits_of_zero rfl
      · exact h
  · simp only [ha]
    exact h

theorem pending_chainTo (s : State) (r : ChannelRec) (d : Descriptor) (slot : Byte) :
    (s.chainTo r d slot).pending = r.pending := by
  unfold State.chainTo
  split <;> rfl

theorem pending_endAction (s : State) (r : ChannelRec) (d : Descriptor) : (s.endAction r d).pending = r.pending := by
  unfold State.endAction
  split_ifs
  · exact pending_chainTo ..
  · exact pending_chainTo ..
  · rfl

/-- A successful unit takes one trigger off PENDING (R88). -/
theorem pending_unitSuccess (s : State) (c : Fin 16) :
    (s.unitSuccess c).pending = if (s.channel c).pending = 0 then 0 else (s.channel c).pending - 1 := by
  unfold State.unitSuccess
  simp only
  split
  · exact pending_endAction ..
  · rfl

/-- The state that follows a unit fits its PENDING. -/
theorem pendingFits_unitNext {r : ChannelRec} (stops : Bool) (h : r.pending.toNat ≤ 2) :
    (r.unitNext stops).pendingFits := by
  unfold ChannelRec.unitNext
  split_ifs
  · exact pendingFits_of_zero rfl
  · exact pendingFits_of_zero rfl
  · exact pendingFits_of_zero rfl
  · exact pendingFits_of_active h rfl

theorem pendingFits_unitRecord {s : State} {c : Fin 16} (failure : Condition) (h : (s.channel c).pending.toNat ≤ 2) :
    (s.unitRecord c failure).pendingFits := by
  unfold State.unitRecord
  split
  · refine pendingFits_unitNext _ ?_
    rw [pending_unitSuccess]
    split
    · decide
    · rename_i h0
      have := BitVec.toNat_ne.mp h0
      simp only [BitVec.toNat_sub]
      simp at this ⊢
      omega
  · exact pendingFits_unitNext _ h

theorem pendingBounded_setChannel {s : State} {c : Fin 16} {r : ChannelRec} (hs : s.pendingBounded)
    (hr : r.pendingFits) : (s.setChannel c r).pendingBounded := fun e => by
  rw [channel_setChannel]
  split
  · exact hr
  · exact hs e

theorem pendingBounded_unitEnd {s : State} (c : Fin 16) (failure : Condition) (hs : s.pendingBounded) :
    (s.unitEnd c failure).pendingBounded := fun e => by
  rw [channel_unitEnd]
  split
  · exact pendingFits_unitRecord failure (hs c).1
  · exact hs e

theorem pendingBounded_grantChannel {s : State} (c : Fin 16) (hs : s.pendingBounded) :
    (s.grantChannel c).pendingBounded := by
  have hg : (s.channelGranted c).pendingBounded :=
    pendingBounded_setChannel (r := { s.channel c with state := .busy }) hs (pendingFits_of_active (hs c).1 rfl)
  rcases grantChannel_cases s c with ⟨_, e⟩ | ⟨_, e⟩ <;> rw [e]
  · exact hg
  · exact pendingBounded_unitEnd c _ hg

theorem pendingBounded_putHostByte {s : State} (a : BitVec 13) (v : Byte) (hs : s.pendingBounded) :
    (s.putHostByte a v).pendingBounded := by
  unfold State.putHostByte
  split
  · exact hs
  · rename_i c off _
    refine pendingBounded_setChannel hs ?_
    unfold ChannelRec.setHostByte
    split <;> exact hs c
  · exact hs
  · exact hs

/-! ## Every act -/

/-- Every act keeps the settings in their ranges and the three counts within their bounds. -/
theorem Act.bounded {s t : State} (h : Act s t) :
    (s.settingsInRange → t.settingsInRange) ∧ (s.slotsHeld ≤ 8 → t.slotsHeld ≤ 8) ∧
      (s.hostWaitBounded → t.hostWaitBounded) ∧ (s.pendingBounded → t.pendingBounded) := by
  have resetSettings : State.reset.settingsInRange := by unfold State.settingsInRange; decide
  have resetSlots : State.reset.slotsHeld ≤ 8 := by decide
  cases h with
  | quiet e => rw [e]; exact ⟨id, id, id, id⟩
  -- the settings
  | setClock v h => exact ⟨fun ⟨_, rest⟩ => ⟨h, rest⟩, id, id, id⟩
  | setTickPeriod v h => exact ⟨fun ⟨hc, _, rest⟩ => ⟨hc, h, rest⟩, id, id, id⟩
  | setWakeUs v h => exact ⟨fun ⟨hc, ht, _, rest⟩ => ⟨hc, ht, h, rest⟩, id, id, id⟩
  | setBusDiv v h => exact ⟨fun ⟨hc, ht, hw, _, hi⟩ => ⟨hc, ht, hw, h, hi⟩, id, id, id⟩
  | setIntEnable v =>
    have hv : (v &&& 0x7F#16).toNat ≤ 127 := by rw [BitVec.toNat_and]; exact Nat.and_le_right
    exact ⟨fun ⟨hc, ht, hw, hb, _⟩ => ⟨hc, ht, hw, hb, Nat.lt_succ_of_le hv⟩, id, id, id⟩
  -- host requests
  | submits hv hf => exact ⟨id, fun _ => slotsHeld_submit _ hf, fun hs => ⟨hs.1, fun h => absurd h (by simp)⟩, id⟩
  | disposes =>
    refine ⟨?_, (slotsHeld_disposeHeads s).trans_le, hostWaitBounded_disposeHeads, ?_⟩ <;>
      (rw [disposeHeads_frame]; exact id)
  | flushes => exact ⟨id, (slotsHeld_flushRequests s).trans_le, fun _ => hostWaitBounded_of_zero rfl, id⟩
  | pops => exact ⟨id, (slotsHeld_popCompletion_le s).trans, id, id⟩
  | requestEnds r c hg hi => exact ⟨id, (slotsHeld_requestEnd c hi).trans_le, id, id⟩
  -- channels
  | channelMarks c r h =>
    refine ⟨id, id, id, fun hs => pendingBounded_setChannel hs ?_⟩
    rw [h]; exact hs c
  | arrives c => exact ⟨id, id, id, fun hs => pendingBounded_setChannel hs (pendingFits_arrive (hs c))⟩
  | halts c ht ho => exact ⟨id, id, id, fun hs => pendingBounded_setChannel hs (pendingFits_of_zero rfl)⟩
  | starts c ha hf hv => exact ⟨id, id, id, fun hs => pendingBounded_setChannel hs (pendingFits_of_zero rfl)⟩
  | stops c h => exact ⟨id, id, id, fun hs => pendingBounded_setChannel hs (pendingFits_of_zero rfl)⟩
  | unitEnds c x k h =>
    refine ⟨?_, ?_, ?_, pendingBounded_unitEnd c x⟩ <;> (rw [unitEnd_frame]; exact id)
  -- decisions
  | takes k hf hr hc =>
    cases k with
    | duty n => exact ⟨id, id, id, id⟩
    | channel c =>
      refine ⟨?_, ?_, hostWaitBounded_grantChannel hc, pendingBounded_grantChannel c⟩ <;>
        (rw [State.take, grantChannel_frame]; exact id)
    | host r =>
      refine ⟨?_, (slotsHeld_grantHost_le hc).trans, fun _ => hostWaitBounded_of_zero rfl, ?_⟩ <;>
        (rw [State.take, grantHost_frame]; exact id)
  -- resets
  | softResets h =>
    have hp : s.softResetEffects.pendingBounded := fun c => by
      rw [channel_softResetEffects]; exact pendingFits_of_zero rfl
    refine ⟨?_, (slotsHeld_softResetEffects s).trans_le, fun _ => ?_, fun _ => hp⟩ <;>
      (obtain ⟨_, _, _, e⟩ := softResetEffects_frame s; rw [e])
    · exact id
    · exact hostWaitBounded_of_zero rfl
  | fullResets =>
    have hp : s.pendingBounded → s.fullReset.pendingBounded := fun hs c => by
      rw [channel_fullReset]; exact hs c
    refine ⟨fun _ => ?_, fun _ => ?_, fun _ => ?_, hp⟩ <;> rw [fullReset_frame]
    · exact resetSettings
    · exact resetSlots
    · exact hostWaitBounded_of_zero rfl
  | clears lines h =>
    have hp : (s.cleared lines).pendingBounded := (by unfold State.pendingBounded; decide : State.reset.pendingBounded)
    exact ⟨fun _ => resetSettings, fun _ => resetSlots, fun _ => hostWaitBounded_of_zero rfl, fun _ => hp⟩
  -- acts that move records, memory or the bus only
  | hostByte a v h =>
    refine ⟨?_, ?_, ?_, pendingBounded_putHostByte a v⟩ <;> (rw [putHostByte_frame]; exact id)
  | race a v => rw [raceWrite_frame]; exact ⟨id, id, id, id⟩
  | stores a o data h => rw [storeReceived_frame]; exact ⟨id, id, id, id⟩
  | expires n h => rw [expireDuty_frame]; exact ⟨id, id, id, id⟩
  | runSucceeds n p h => rw [runSucceeded_frame]; exact ⟨id, id, id, id⟩
  | runFails n x p h => rw [runFailed_frame]; exact ⟨id, id, id, id⟩
  | _ => exact ⟨id, id, id, id⟩

/-- Settles O55: each act keeps each of the four bounds. -/
theorem settingsAndCountsStayBounded : Obligations.SettingsAndCountsStayBounded := fun _ _ h =>
  ⟨step_keeps (P := State.settingsInRange) (fun a => a.bounded.1) h,
    step_keeps (P := fun s => s.slotsHeld ≤ 8) (fun a => a.bounded.2.1) h,
    step_keeps (P := State.hostWaitBounded) (fun a => a.bounded.2.2.1) h,
    step_keeps (P := State.pendingBounded) (fun a => a.bounded.2.2.2) h⟩

end Sys2Proof.Machine
end

/-!
SUPPORT. Expiries and ticks: what one does to its duty's record and to the due queue (R6, R7, R11 to R15, R31, R32).
-/

section
namespace Sys2Proof.Machine

open Sys2Proof

/-! ## Expiries, case by case -/

/-- The record at an expiry that lowers the balance: the timer reloads and BALANCE falls by 1 (R7, R11, R13, R14). -/
def DutyRec.lowered (d : DutyRec) : DutyRec := { d with remaining := d.interval, balance := d.balance - 1 }

/-- The record at an expiry that finds BALANCE at -POSTPONE_LIMIT (R7, R12). -/
def DutyRec.latened (d : DutyRec) : DutyRec := { d with remaining := d.interval }.late

@[simp] theorem DutyRec.lowered_state (d : DutyRec) : d.lowered.state = d.state := rfl

@[simp] theorem DutyRec.latened_state (d : DutyRec) : d.latened.state = d.state := rfl

theorem atLimit_iff (d : DutyRec) : d.atLimit = true ↔ d.balance = -(d.postponeLimit.toNat : Int) := by
  simp [DutyRec.atLimit]

theorem expireDuty_eq (s : State) (n : Fin 32) : s.expireDuty n =
    match (s.duty n).state with
    | .idle => s
    | .faulted => s
    | .armed =>
      if (s.duty n).balance - 1 < 0 then (s.setDuty n { (s.duty n).lowered with state := .due }).insertDue n
      else s.setDuty n (s.duty n).lowered
    | .due =>
      if (s.duty n).atLimit then s.setDuty n (s.duty n).latened
      else ((s.setDuty n (s.duty n).lowered).removeDue n).insertDue n
    | .running =>
      if (s.duty n).atLimit then s.setDuty n (s.duty n).latened else s.setDuty n (s.duty n).lowered := rfl

section
variable {s : State} {n : Fin 32}

theorem expireDuty_armed (hs : (s.duty n).state = .armed) (hb : 1 ≤ (s.duty n).balance) :
    s.expireDuty n = s.setDuty n (s.duty n).lowered := by
  rw [expireDuty_eq, hs]
  exact if_neg (by omega)

theorem expireDuty_fallsDue (hs : (s.duty n).state = .armed) (hb : (s.duty n).balance ≤ 0) :
    s.expireDuty n = (s.setDuty n { (s.duty n).lowered with state := .due }).insertDue n := by
  rw [expireDuty_eq, hs]
  exact if_pos (by omega)

theorem expireDuty_late (hs : (s.duty n).state = .due ∨ (s.duty n).state = .running)
    (hb : (s.duty n).balance = -((s.duty n).postponeLimit.toNat : Int)) :
    s.expireDuty n = s.setDuty n (s.duty n).latened := by
  rw [expireDuty_eq]
  rcases hs with hs | hs <;> rw [hs] <;> exact if_pos ((atLimit_iff _).mpr hb)

theorem expireDuty_due (hs : (s.duty n).state = .due)
    (hb : (s.duty n).balance ≠ -((s.duty n).postponeLimit.toNat : Int)) :
    s.expireDuty n = ((s.setDuty n (s.duty n).lowered).removeDue n).insertDue n := by
  rw [expireDuty_eq, hs]
  exact if_neg (fun h => hb ((atLimit_iff _).mp h))

theorem expireDuty_running (hs : (s.duty n).state = .running)
    (hb : (s.duty n).balance ≠ -((s.duty n).postponeLimit.toNat : Int)) :
    s.expireDuty n = s.setDuty n (s.duty n).lowered := by
  rw [expireDuty_eq, hs]
  exact if_neg (fun h => hb ((atLimit_iff _).mp h))

end

theorem active_iff (d : DutyRec) : d.active = true ↔ d.state = .armed ∨ d.state = .due ∨ d.state = .running := by
  simp [DutyRec.active, or_assoc]

theorem not_active_iff (d : DutyRec) : d.active = false ↔ d.state = .idle ∨ d.state = .faulted := by
  cases h : d.state <;> simp [DutyRec.active, h]

/-- EXPIRY of a timer that runs is the expiry and the end of the event. -/
theorem exec_expiry {s : State} {n : Fin 32} (hp : s.phase = .running) (hn : (s.duty n).paused s.busState = false)
    (ha : (s.duty n).active = true) : exec (.expiry n) s = .next (s.expireDuty n).settle :=
  if_pos ⟨hp, ha, hn⟩

/-- Settles O9, by the cases of an expiry. -/
theorem expiryActsByStateAndBalance : Obligations.ExpiryActsByStateAndBalance := by
  intro s n hp hn
  have run := fun h => exec_expiry hp hn ((active_iff _).mpr h)
  refine ⟨fun hs hb => ?_, fun hs hb => ?_, fun hs hb => ?_, fun hs hb => ?_, fun hs hb => ?_, fun hs => ?_⟩
  · rw [run (.inr hs), expireDuty_late hs hb]
    rfl
  · rw [run (.inl hs), expireDuty_armed hs hb]
    rfl
  · rw [run (.inl hs), expireDuty_fallsDue hs hb.le]
    rfl
  · rw [run (.inr (.inl hs)), expireDuty_due hs hb]
    rfl
  · rw [run (.inr (.inr hs)), expireDuty_running hs hb]
    rfl
  · have idle := (not_active_iff _).mpr hs
    exact if_neg fun h => by rw [idle] at h; cases h.2.1

/-! ## One duty's part of a tick -/

/-- What an expiry makes of a duty's own record. -/
def DutyRec.expire (d : DutyRec) : DutyRec :=
  match d.state with
  | .idle => d
  | .faulted => d
  | .armed => if d.balance - 1 < 0 then { d.lowered with state := .due } else d.lowered
  | .due => if d.atLimit then d.latened else d.lowered
  | .running => if d.atLimit then d.latened else d.lowered

/-- What a tick makes of a duty's own record in bus state `b`. -/
def DutyRec.tick (d : DutyRec) (b : BusState) : DutyRec :=
  if d.active && !d.paused b then
    if d.remaining.toNat ≤ 1 then d.expire else { d with remaining := d.remaining - 1 }
  else d

theorem duty_expireDuty (s : State) (n : Fin 32) : (s.expireDuty n).duty n = (s.duty n).expire := by
  rw [expireDuty_eq, DutyRec.expire]
  cases hs : (s.duty n).state with
  | idle => rfl
  | faulted => rfl
  | _ =>
    simp only
    split <;> simp

theorem duty_tickDuty (s : State) (n : Fin 32) : (s.tickDuty n).duty n = (s.duty n).tick s.busState := by
  unfold State.tickDuty DutyRec.tick
  simp only
  split_ifs
  · exact duty_expireDuty s n
  · simp
  · rfl

end Sys2Proof.Machine
end

/-!
SUPPORT. A tick: the duty file and the due queue after every duty has been processed in ascending index (R15).
-/

section
namespace Sys2Proof.Machine

open Sys2Proof

/-! ## The records -/

/-- Processing each duty of a list once gives each the record its own tick makes. -/
theorem duty_foldl_tickDuty (l : List (Fin 32)) (hl : l.Nodup) (s : State) (k : Fin 32) :
    (l.foldl State.tickDuty s).duty k = if k ∈ l then (s.duty k).tick s.busState else s.duty k := by
  induction l generalizing s with
  | nil => simp
  | cons n l ih =>
    obtain ⟨hn, hl⟩ := List.nodup_cons.mp hl
    have hb : (s.tickDuty n).busState = s.busState := by rw [tickDuty_frame]
    rw [List.foldl_cons, ih hl, hb]
    by_cases hk : k = n
    · subst hk
      simp [hn, duty_tickDuty]
    · simp [hk, duty_tickDuty_ne s hk]

/-- The state at which the timers of a tick are processed: every HELD flag is clear (R15). -/
def State.heldCleared (s : State) : State := s.mapDuties (fun d => { d with held := false })

theorem heldCleared_frame (s : State) : s.heldCleared = { s with duties := s.heldCleared.duties } := mapDuties_frame ..

theorem duty_heldCleared (s : State) (n : Fin 32) : s.heldCleared.duty n = { s.duty n with held := false } :=
  duty_mapDuties ..

theorem tick_frame {s a t : State} (ha : a = { s with duties := a.duties })
    (ht : t = { a with duties := t.duties, dueQueue := t.dueQueue }) :
    t = { s with duties := t.duties, dueQueue := t.dueQueue } := by
  rw [ht, ha]

/-- A tick changes the duty file and the due queue only. -/
theorem upkeepTick_frame (s : State) :
    s.upkeepTick = { s with duties := s.upkeepTick.duties, dueQueue := s.upkeepTick.dueQueue } :=
  tick_frame (heldCleared_frame s) (foldl_tickDuty_frame allDuties _)

theorem duty_upkeepTick (s : State) (n : Fin 32) :
    s.upkeepTick.duty n = { s.duty n with held := false }.tick s.busState := by
  have hb : s.heldCleared.busState = s.busState := by rw [heldCleared_frame]
  have h := duty_foldl_tickDuty allDuties nodup_allDuties s.heldCleared n
  rw [if_pos (mem_allDuties n), duty_heldCleared, hb] at h
  exact h

/-! ## The due queue -/

/-- The timer of duty `n` runs, and runs out at this tick (R6, R7). -/
abbrev State.expiresNow (s : State) (n : Fin 32) : Prop :=
  (s.duty n).active = true ∧ (s.duty n).paused s.busState = false ∧ (s.duty n).remaining.toNat ≤ 1

/-- What duty `n` in state `s` does to the due queue `q` at a tick, each entry at the slack given (R31 to R33). -/
def State.tickQueue (s : State) (slack : Fin 32 → Int) (n : Fin 32) (q : List (Fin 32)) : List (Fin 32) :=
  if s.expiresNow n ∧ (s.duty n).state = .armed ∧ (s.duty n).balance ≤ 0 then placeBySlack slack n q
  else if s.expiresNow n ∧ (s.duty n).state = .due ∧
      (s.duty n).balance ≠ -((s.duty n).postponeLimit.toNat : Int) then
    placeBySlack slack n (q.filter (fun k => k != n))
  else q

theorem tickDuty_of_expires {s : State} {n : Fin 32} (h : s.expiresNow n) : s.tickDuty n = s.expireDuty n := by
  obtain ⟨ha, hp, hr⟩ := h
  simp [State.tickDuty, ha, hp, hr]

theorem dueQueue_tickDuty_of_not {s : State} {n : Fin 32} (h : ¬s.expiresNow n) :
    (s.tickDuty n).dueQueue = s.dueQueue := by
  unfold State.tickDuty
  simp only
  split_ifs with hr h1
  · simp only [Bool.and_eq_true, Bool.not_eq_true'] at hr
    exact absurd ⟨hr.1, hr.2, h1⟩ h
  · rfl
  · rfl

theorem dueQueue_tickDuty (s : State) (n : Fin 32) :
    (s.tickDuty n).dueQueue = s.tickQueue (s.tickDuty n).slackOf n s.dueQueue := by
  by_cases h : s.expiresNow n
  · rw [tickDuty_of_expires h]
    unfold State.tickQueue
    by_cases hfall : (s.duty n).state = .armed ∧ (s.duty n).balance ≤ 0
    · rw [if_pos ⟨h, hfall⟩, expireDuty_fallsDue hfall.1 hfall.2]
      rfl
    · rw [if_neg fun x => hfall x.2]
      by_cases hmove : (s.duty n).state = .due ∧ (s.duty n).balance ≠ -((s.duty n).postponeLimit.toNat : Int)
      · rw [if_pos ⟨h, hmove⟩, expireDuty_due hmove.1 hmove.2]
        rfl
      · rw [if_neg fun x => hmove x.2]
        rcases (active_iff _).mp h.1 with hs | hs | hs
        · rw [expireDuty_armed hs (by simp [hs] at hfall; omega)]
          rfl
        · rw [expireDuty_late (.inl hs) (by simpa [hs] using hmove)]
          rfl
        · rw [expireDuty_eq, hs]
          simp only
          split <;> rfl
  · rw [dueQueue_tickDuty_of_not h, State.tickQueue, if_neg fun x => h x.1, if_neg fun x => h x.1]

/-- What a duty does to the queue at a tick depends on its own record and the bus state. -/
theorem tickQueue_congr {s u : State} {n : Fin 32} (hd : u.duty n = s.duty n) (hb : u.busState = s.busState)
    (slack : Fin 32 → Int) (q : List (Fin 32)) : u.tickQueue slack n q = s.tickQueue slack n q := by
  have he : u.expiresNow n ↔ s.expiresNow n := by unfold State.expiresNow; rw [hd, hb]
  simp only [State.tickQueue, hd, he]

/-- The slack of each entry while duty `n` is processed: those up to `n` stand as after the tick, those behind it as
before. -/
def slackAt (before after : State) (n k : Fin 32) : Int := if k ≤ n then after.slackOf k else before.slackOf k

theorem slackOf_of_duty {s t : State} {k : Fin 32} (h : t.duty k = s.duty k) : t.slackOf k = s.slackOf k := by
  unfold State.slackOf
  rw [h]

/-- What a tick makes of the due queue: each duty of an ascending list that reaches to the last acts on it in turn. -/
theorem dueQueue_foldl_tickDuty (l : List (Fin 32)) (hl : l.Pairwise (· < ·)) (s : State)
    (hs : ∀ k, k ∉ l → ∀ j ∈ l, k < j) :
    let t := l.foldl State.tickDuty s
    t.dueQueue = l.foldl (fun q n => s.tickQueue (slackAt s t n) n q) s.dueQueue := by
  induction l generalizing s with
  | nil => rfl
  | cons n l ih =>
    obtain ⟨hn, hl⟩ := List.pairwise_cons.mp hl
    have hup : ∀ k, k ∉ l → ∀ j ∈ l, k < j := fun k hk j hj => by
      by_cases he : k = n
      · exact he ▸ hn j hj
      · exact hs k (by simp [he, hk]) j (by simp [hj])
    have hb : (s.tickDuty n).busState = s.busState := by rw [tickDuty_frame]
    have last : ∀ k, k ≤ n → (l.foldl State.tickDuty (s.tickDuty n)).duty k = (s.tickDuty n).duty k := fun k hk => by
      have hkl : k ∉ l := fun h => absurd (hn k h) (not_lt.mpr hk)
      rw [duty_foldl_tickDuty l (hl.imp ne_of_lt), if_neg hkl]
    have rest := ih hl (s.tickDuty n) hup
    simp only [List.foldl_cons] at rest ⊢
    generalize l.foldl State.tickDuty (s.tickDuty n) = t at rest last ⊢
    have first : (s.tickDuty n).slackOf = slackAt s t n := funext fun k => by
      unfold slackAt
      split
      · exact (slackOf_of_duty (last k ‹_›)).symm
      · exact slackOf_of_duty (duty_tickDuty_ne s fun h => absurd h.le ‹_›)
    rw [rest, dueQueue_tickDuty, first]
    refine List.foldl_ext _ _ _ fun q j hj => ?_
    have hjn : j ≠ n := (hn j hj).ne'
    have behind : slackAt (s.tickDuty n) t j = slackAt s t j := funext fun k => by
      unfold slackAt
      split
      · rfl
      · exact slackOf_of_duty (duty_tickDuty_ne s fun h => absurd (h ▸ (hn j hj).le) ‹_›)
    rw [behind, tickQueue_congr (duty_tickDuty_ne s hjn) hb]

/-- The due queue after a tick (R31 to R33). -/
theorem dueQueue_upkeepTick (s : State) :
    s.upkeepTick.dueQueue = allDuties.foldl (fun q n => s.tickQueue (slackAt s s.upkeepTick n) n q) s.dueQueue := by
  have h := dueQueue_foldl_tickDuty allDuties (by decide) s.heldCleared fun k hk => absurd (mem_allDuties k) hk
  have hq : s.heldCleared.dueQueue = s.dueQueue := by rw [heldCleared_frame]
  have hb : s.heldCleared.busState = s.busState := by rw [heldCleared_frame]
  have slack : ∀ t n, slackAt s.heldCleared t n = slackAt s t n := fun t n => funext fun k => by
    have : s.heldCleared.slackOf k = s.slackOf k := by
      unfold State.slackOf
      rw [duty_heldCleared]
      rfl
    unfold slackAt
    rw [this]
  have queue : ∀ sl n q, s.heldCleared.tickQueue sl n q = s.tickQueue sl n q := fun sl n q => by
    unfold State.tickQueue State.expiresNow
    rw [duty_heldCleared, hb]
    rfl
  simp only [hq, slack, queue] at h
  exact h

end Sys2Proof.Machine
end

/-!
SUPPORT. Marks: what the marks up to a moment make of the timebase and of the wait of WAKING (R3, R4, R168).
-/

section
namespace Sys2Proof.Machine

open Sys2Proof

/-! ## Marks -/

/-- Marks that do not complete the period in force count in the tick counter (R4). -/
theorem countMarks_within {s : State} {k : Nat} (h : s.tickCount + k < s.periodInForce.toNat) :
    s.countMarks k = { s with tickCount := s.tickCount + k } :=
  if_pos h

/-- The mark that completes the period in force issues a tick and begins a period under TICK_PERIOD (R4). -/
theorem countMarks_complete {s : State} {k : Nat} (h : s.tickCount + k = s.periodInForce.toNat) :
    s.countMarks k = { s with tickCount := 0, ticksDue := s.ticksDue + 1, periodInForce := s.tickPeriod } := by
  simp [State.countMarks, h]

/-- The tick counter's marks change its count, the ticks due and the period in force. -/
theorem countMarks_frame (s : State) (k : Nat) :
    let t := s.countMarks k
    t = { s with tickCount := t.tickCount, ticksDue := t.ticksDue, periodInForce := t.periodInForce } := by
  unfold State.countMarks
  simp only
  split <;> rfl

/-- The wake timer after `k` more marks: it counts during the wait, up to the latched WAKE_US (R168). -/
def State.wakeAfter (s : State) (k : Nat) : Nat :=
  if s.wakeWaiting then min s.wakeLatched.toNat (s.wakeTimer + k) else s.wakeTimer

/-- Marks go to the tick counter and to the wake timer, and the prescaler restarts under CLOCK_MHZ (R3). -/
theorem passMarks_eq (s : State) {k : Nat} (hk : k ≠ 0) :
    s.passMarks k = { s.countMarks k with
      prescaler := 0, prescalerDiv := s.clockMhz, wakeTimer := s.wakeAfter k } := by
  unfold State.passMarks State.countWake State.wakeAfter
  rw [if_neg hk, countMarks_frame]
  cases s.wakeWaiting <;> rfl

/-! ## The end of the wait -/

/-- Without a wait, or before its last mark, no wait ends. -/
theorem endWaitIfOver_of_not {s : State} (h : s.wakeWaiting = true → s.wakeTimer < s.wakeLatched.toNat) :
    s.endWaitIfOver = s := by
  have : s.waitOver = false := by
    unfold State.waitOver
    cases hw : s.wakeWaiting with
    | false => rfl
    | true => simpa using h hw
  exact if_neg (by simp [this])

/-- The mark that brings the timer to the latched WAKE_US ends the wait (R168). -/
theorem endWaitIfOver_of_over {s : State} (hw : s.wakeWaiting = true) (h : s.wakeLatched.toNat ≤ s.wakeTimer) :
    s.endWaitIfOver = s.endWait :=
  if_pos (by simp [State.waitOver, hw, h])

/-- The end of the wait clears the timer and the purpose and moves the bus state. -/
theorem endWait_frame (s : State) :
    let t := s.endWait
    t = { s with
      wakeTimer := 0, wakeWaiting := false, purpose := .none, busState := t.busState
      busStateCause := t.busStateCause } := by
  unfold State.endWait
  cases s.purpose <;> rfl

theorem endWait_excursion {s : State} (h : s.purpose = .excursion) :
    s.endWait.busState = .excursion ∧ s.endWait.busStateCause = s.busStateCause := by
  simp [State.endWait, h]

theorem endWait_active {s : State} (h : s.purpose ≠ .excursion) :
    s.endWait.busState = .active ∧ s.endWait.busStateCause = true := by
  unfold State.endWait
  cases hp : s.purpose <;> simp_all

/-! ## One mark and one chip clock -/

/-- One mark, before its event ends. -/
def State.marked (s : State) : State := (s.passMarks 1).endWaitIfOver

theorem exec_microsecondMark {s : State} (h : s.phase = .running) :
    exec .microsecondMark s = .next s.marked.settle := if_pos h

theorem passMarks_one (s : State) : s.passMarks 1 = { s with
    prescaler := 0, prescalerDiv := s.clockMhz, tickCount := (s.countMarks 1).tickCount
    ticksDue := (s.countMarks 1).ticksDue, periodInForce := (s.countMarks 1).periodInForce
    wakeTimer := s.wakeAfter 1 } := by
  rw [passMarks_eq s one_ne_zero, countMarks_frame]

/-- A mark that does not end the wait. -/
theorem marked_of_not {s : State} (h : s.wakeWaiting = true → s.wakeTimer + 1 < s.wakeLatched.toNat) :
    s.marked = s.passMarks 1 := by
  refine endWaitIfOver_of_not ?_
  rw [passMarks_one]
  intro hw
  have hw : s.wakeWaiting = true := hw
  have := h hw
  simp only [State.wakeAfter, hw, if_true]
  omega

/-- The mark that ends the wait. -/
theorem marked_of_over {s : State} (hw : s.wakeWaiting = true) (h : s.wakeLatched.toNat ≤ s.wakeTimer + 1) :
    s.marked = (s.passMarks 1).endWait := by
  refine endWaitIfOver_of_over ?_ ?_ <;> rw [passMarks_one]
  · exact hw
  · simp only [State.wakeAfter, hw, if_true]
    omega

/-- A mark either leaves the wait or ends it. -/
theorem marked_cases (s : State) :
    ((s.wakeWaiting = true → s.wakeTimer + 1 < s.wakeLatched.toNat) ∧ s.marked = s.passMarks 1) ∨
      (s.wakeWaiting = true ∧ s.wakeLatched.toNat ≤ s.wakeTimer + 1 ∧ s.marked = (s.passMarks 1).endWait) := by
  by_cases h : s.wakeWaiting = true → s.wakeTimer + 1 < s.wakeLatched.toNat
  · exact .inl ⟨h, marked_of_not h⟩
  · simp only [Classical.not_imp, not_lt] at h
    exact .inr ⟨h.1, h.2, marked_of_over h.1 h.2⟩

/-- A mark moves the timebase and the wait of WAKING only. -/
theorem marked_frame (s : State) :
    let u := s.marked
    u = { s with
      prescaler := 0, prescalerDiv := s.clockMhz, tickCount := (s.countMarks 1).tickCount
      ticksDue := (s.countMarks 1).ticksDue, periodInForce := (s.countMarks 1).periodInForce
      wakeTimer := u.wakeTimer, wakeWaiting := u.wakeWaiting, purpose := u.purpose, busState := u.busState
      busStateCause := u.busStateCause } := by
  rcases marked_cases s with ⟨_, e⟩ | ⟨_, _, e⟩ <;> simp only [e]
  · rw [passMarks_one]
  · rw [endWait_frame, passMarks_one]

/-- Settles O7, by the cases of a chip clock and of a mark. -/
theorem clocksMarksAndTicksAreCounted : Obligations.ClocksMarksAndTicksAreCounted := by
  intro s keeps
  have clock : s.pending = [] → step s = .next s.chipClock := fun h => by unfold step; rw [h]
  have h1 := passMarks_one s
  refine ⟨fun hq => ⟨fun hp => ?_, fun hp hlt => ?_, fun hp hle => ?_⟩, fun hp => if_neg hp, fun hp => ?_⟩
  · rw [clock hq, State.chipClock, if_neg hp]
  · rw [clock hq, State.chipClock, if_pos hp, if_pos hlt]
  · rw [clock hq, State.chipClock, if_pos hp, if_neg (by omega), exec_microsecondMark hp]
    rfl
  · refine ⟨s.marked, exec_microsecondMark hp, by rw [marked_frame], by rw [marked_frame], fun hlt => ?_, fun he => ?_,
      fun hw => ?_, fun hw hlt => ?_, fun hw hle => ?_, by rw [marked_frame]⟩
    · rw [marked_frame, countMarks_within hlt]
      exact ⟨rfl, rfl, rfl⟩
    · rw [marked_frame, countMarks_complete he]
      exact ⟨rfl, rfl, rfl⟩
    · rw [marked_of_not (by simp [hw]), h1]
      exact ⟨by simp [State.wakeAfter, hw], rfl, rfl, rfl, rfl⟩
    · rw [marked_of_not fun _ => hlt, h1]
      exact ⟨by simp only [State.wakeAfter, hw, if_true]; omega, rfl, rfl, rfl, rfl⟩
    · have purpose : (s.passMarks 1).purpose = s.purpose := by rw [h1]
      have cause : (s.passMarks 1).busStateCause = s.busStateCause := by rw [h1]
      rw [marked_of_over hw hle, ← cause]
      refine ⟨by rw [endWait_frame], by rw [endWait_frame], by rw [endWait_frame], fun hx => ?_, fun hx => ?_⟩
      · exact endWait_excursion (purpose.trans hx)
      · exact endWait_active (purpose.symm ▸ hx)

end Sys2Proof.Machine
end

section
namespace Sys2Proof.Machine

open Sys2Proof

/-! ## The tick that is taken -/

theorem exec_tick {s : State} (h : s.phase = .running) :
    exec .tick s = .next s.takeTick.upkeepTick.endWaitIfOver.settle := if_pos h

/-- Where no tick is due, the marks up to the tick pass and the tick they issue is taken. -/
theorem takeTick_of_none {s : State} (h : s.ticksDue = 0) :
    s.takeTick = { s.passToTick with ticksDue := s.passToTick.ticksDue - 1 } := by
  unfold State.takeTick
  simp only [h, if_true]

/-- The marks of the rest of a period, up to its tick. -/
theorem passMarks_rest {s : State} (h : s.tickCount < s.periodInForce.toNat) :
    s.passMarks (s.periodInForce.toNat - s.tickCount) = { s with
      prescaler := 0, prescalerDiv := s.clockMhz, tickCount := 0, ticksDue := s.ticksDue + 1
      periodInForce := s.tickPeriod, wakeTimer := s.wakeAfter (s.periodInForce.toNat - s.tickCount) } := by
  rw [passMarks_eq s (by omega), countMarks_complete (by omega)]

/-- With no wait of WAKING that ends first, the marks of the rest of the period pass. -/
theorem takeTick_straight {s : State} (h0 : s.ticksDue = 0) (h : s.tickCount < s.periodInForce.toNat)
    (hw : s.wakeWaiting = true → s.periodInForce.toNat - s.tickCount ≤ s.wakeLatched.toNat - s.wakeTimer) :
    s.takeTick = { s with
      prescaler := 0, prescalerDiv := s.clockMhz, tickCount := 0, periodInForce := s.tickPeriod
      wakeTimer := s.wakeAfter (s.periodInForce.toNat - s.tickCount) } := by
  have e : s.passToTick = s.passMarks (s.periodInForce.toNat - s.tickCount) := by
    rcases passToTick_cases s with ⟨_, e⟩ | ⟨hw', hl, _⟩
    · exact e
    · exact absurd (hw hw') (by omega)
  rw [takeTick_of_none h0, e, passMarks_rest h]
  simp [h0]

/-- The state in which a wait of WAKING ends `left` marks on, within the period in progress. -/
def State.waitEnded (s : State) : State := (s.passMarks (s.wakeLatched.toNat - s.wakeTimer)).endWait

theorem waitEnded_frame {s : State} (hl : 0 < s.wakeLatched.toNat - s.wakeTimer)
    (h : s.tickCount + (s.wakeLatched.toNat - s.wakeTimer) < s.periodInForce.toNat) :
    let e := s.waitEnded
    e = { s with
      prescaler := 0, prescalerDiv := s.clockMhz, tickCount := s.tickCount + (s.wakeLatched.toNat - s.wakeTimer)
      wakeTimer := 0, wakeWaiting := false, purpose := .none, busState := e.busState
      busStateCause := e.busStateCause } := by
  have hm := passMarks_eq s (k := s.wakeLatched.toNat - s.wakeTimer) (by omega)
  rw [countMarks_within h] at hm
  unfold State.waitEnded
  simp only
  rw [endWait_frame, hm]

/-- Where the wait ends before the tick, it ends as an event of its own, and the rest of the period follows. -/
theorem takeTick_behind_wait {s : State} (h0 : s.ticksDue = 0) (hw : s.wakeWaiting = true)
    (hl : 0 < s.wakeLatched.toNat - s.wakeTimer)
    (h : s.wakeLatched.toNat - s.wakeTimer < s.periodInForce.toNat - s.tickCount) :
    s.takeTick = { s.waitEnded.settle with tickCount := 0, periodInForce := s.tickPeriod } := by
  have e : s.passToTick = s.waitEnded.settle.passMarks
      (s.periodInForce.toNat - s.tickCount - (s.wakeLatched.toNat - s.wakeTimer)) := by
    rcases passToTick_cases s with ⟨hn, _⟩ | ⟨_, _, e⟩
    · exact absurd ⟨hw, h⟩ hn
    · exact e
  have hf := waitEnded_frame hl (by omega)
  have hs := State.WorkMoves.settle s.waitEnded
  rw [takeTick_of_none h0, e]
  generalize s.waitEnded.settle = u at hs ⊢
  generalize s.waitEnded = x at hf hs
  have hu : u.prescaler = 0 ∧ u.prescalerDiv = u.clockMhz ∧ u.wakeWaiting = false ∧ u.ticksDue = 0 ∧
      u.tickCount = s.tickCount + (s.wakeLatched.toNat - s.wakeTimer) ∧ u.periodInForce = s.periodInForce ∧
      u.tickPeriod = s.tickPeriod := by
    rw [hs, hf]
    exact ⟨rfl, rfl, rfl, h0, rfl, rfl, rfl⟩
  obtain ⟨hp, hd, hww, ht, hc, hi, hper⟩ := hu
  rw [passMarks_eq u (by omega), countMarks_complete (by rw [hc, hi]; omega)]
  simp only [State.wakeAfter, hww, ht, ← hd, ← hp, hper]
  rfl

/-! ## A record at a tick -/

section
variable {d : DutyRec} {b : BusState}

theorem tick_idle (h : ¬(d.active = true ∧ d.paused b = false)) : d.tick b = d :=
  if_neg (by simpa using h)

theorem tick_counts (h : d.active = true ∧ d.paused b = false) (h1 : 1 < d.remaining.toNat) :
    d.tick b = { d with remaining := d.remaining - 1 } := by
  rw [DutyRec.tick, if_pos (by simpa using h), if_neg (by omega)]

theorem tick_expires (h : d.active = true ∧ d.paused b = false) (h1 : d.remaining.toNat ≤ 1) :
    d.tick b = d.expire := by
  rw [DutyRec.tick, if_pos (by simpa using h), if_pos h1]

theorem expire_armed (hs : d.state = .armed) (hb : 1 ≤ d.balance) : d.expire = d.lowered := by
  rw [DutyRec.expire, hs]
  exact if_neg (by omega)

theorem expire_fallsDue (hs : d.state = .armed) (hb : d.balance ≤ 0) :
    d.expire = { d.lowered with state := .due } := by
  rw [DutyRec.expire, hs]
  exact if_pos (by omega)

theorem expire_late (hs : d.state = .due ∨ d.state = .running) (hb : d.balance = -(d.postponeLimit.toNat : Int)) :
    d.expire = d.latened := by
  rw [DutyRec.expire]
  rcases hs with hs | hs <;> rw [hs] <;> exact if_pos ((atLimit_iff _).mpr hb)

theorem expire_lowers (hs : d.state = .due ∨ d.state = .running) (hb : d.balance ≠ -(d.postponeLimit.toNat : Int)) :
    d.expire = d.lowered := by
  rw [DutyRec.expire]
  rcases hs with hs | hs <;> rw [hs] <;> exact if_neg fun h => hb ((atLimit_iff _).mp h)

/-- An active duty that is not ARMED is DUE or RUNNING. -/
theorem due_or_running (ha : d.active = true) (hs : d.state ≠ .armed) : d.state = .due ∨ d.state = .running :=
  ((active_iff d).mp ha).resolve_left hs

end

/-- Settles O8: the tick that is taken, each record by its own tick, and the queue in ascending index. -/
theorem tickActsOnEveryDutyAndTheQueue : Obligations.TickActsOnEveryDutyAndTheQueue := by
  intro s hp v w expires limit
  refine ⟨exec_tick hp, takeTick_of_due, fun h0 h => ⟨fun hw => ?_, fun hw hle => ?_, fun hw hl hlt => ?_⟩,
    upkeepTick_frame v, fun n => ?_, ?_⟩
  · refine (takeTick_straight h0 h (by simp [hw])).trans ?_
    simp [State.wakeAfter, hw]
  · refine (takeTick_straight h0 h fun _ => hle).trans ?_
    have : min s.wakeLatched.toNat (s.wakeTimer + (s.periodInForce.toNat - s.tickCount)) =
        s.wakeTimer + (s.periodInForce.toNat - s.tickCount) := by omega
    simp only [State.wakeAfter, hw, if_true, this]
  · have purpose : (s.passMarks (s.wakeLatched.toNat - s.wakeTimer)).purpose = s.purpose := by rw [passMarks_frame]
    have cause : (s.passMarks (s.wakeLatched.toNat - s.wakeTimer)).busStateCause = s.busStateCause := by
      rw [passMarks_frame]
    refine ⟨s.waitEnded, takeTick_behind_wait h0 hw hl hlt, waitEnded_frame hl (by omega), fun hx => ?_, fun hx => ?_⟩
    · rw [← cause]
      exact endWait_excursion (purpose.trans hx)
    · exact endWait_active (purpose.symm ▸ hx)
  · intro d e runs
    have hw : w.duty n = d.tick v.busState := duty_upkeepTick v n
    rw [hw]
    refine ⟨tick_idle, tick_counts, fun ⟨ha, hn, hr⟩ => ?_⟩
    rw [tick_expires (d := d) ⟨ha, hn⟩ hr]
    exact ⟨expire_armed, expire_fallsDue, fun hs hb => expire_late (due_or_running ha hs) hb,
      fun hs hb => expire_lowers (due_or_running ha hs) hb⟩
  · exact dueQueue_upkeepTick v

end Sys2Proof.Machine
end

/-!
SUPPORT. The accounts: what keeps every balance within the bounds of its duty's state (R2, R9).
-/

section
namespace Sys2Proof.Machine

open Sys2Proof

/-- What an act needs of the accounts and leaves of them: every balance fits its state, only DUE duties stand in the
queue (R30), and a granted duty runs (R37). -/
structure State.AccountsSound (s : State) : Prop where
  fits : ∀ n, (s.duty n).balanceFits
  queued : ∀ n ∈ s.dueQueue, (s.duty n).state = .due
  runs : s.grantRuns

/-! ## The bounds of one record, state by state -/

theorem balanceFits_armed {d : DutyRec} (h : d.state = .armed) :
    d.balanceFits ↔ 0 ≤ d.balance ∧ d.balance ≤ (d.pullinLimit.toNat : Int) ∧ 1 ≤ d.postponeLimit.toNat := by
  simp [DutyRec.balanceFits, h]

theorem balanceFits_due {d : DutyRec} (h : d.state = .due) :
    d.balanceFits ↔ -(d.postponeLimit.toNat : Int) ≤ d.balance ∧ d.balance < 0 := by
  simp [DutyRec.balanceFits, h]

theorem balanceFits_running {d : DutyRec} (h : d.state = .running) :
    d.balanceFits ↔ -(d.postponeLimit.toNat : Int) ≤ d.balance ∧ d.balance ≤ (d.pullinLimit.toNat : Int) ∧
      1 ≤ d.postponeLimit.toNat := by
  simp [DutyRec.balanceFits, h]

/-- A record with the state, the account and the limits of another fits as the other does. -/
theorem balanceFits_congr {d e : DutyRec} (hs : e.state = d.state) (hb : e.balance = d.balance)
    (hp : e.postponeLimit = d.postponeLimit) (hl : e.pullinLimit = d.pullinLimit) : e.balanceFits ↔ d.balanceFits := by
  simp only [DutyRec.balanceFits, hs, hb, hp, hl]

/-- A DUE or ARMED duty may run (R37). -/
theorem balanceFits_grant {d : DutyRec} (h : d.balanceFits) (hs : d.state = .due ∨ d.state = .armed) :
    { d with state := .running }.balanceFits := by
  rw [balanceFits_running rfl]
  rcases hs with hs | hs
  · obtain ⟨h1, h2⟩ := (balanceFits_due hs).mp h
    refine ⟨h1, ?_, ?_⟩ <;> simp only <;> omega
  · obtain ⟨h1, h2, h3⟩ := (balanceFits_armed hs).mp h
    refine ⟨?_, h2, h3⟩
    simp only
    omega

/-- The record of a run that has ended, DUE or ARMED by its balance, fits where it fitted as RUNNING. -/
theorem balanceFits_settle {d : DutyRec} (h : { d with state := .running }.balanceFits) :
    (d.balance < 0 → { d with state := .due }.balanceFits) ∧
      (0 ≤ d.balance → { d with state := .armed }.balanceFits) := by
  obtain ⟨h1, h2, h3⟩ := (balanceFits_running rfl).mp h
  exact ⟨fun hb => (balanceFits_due rfl).mpr ⟨h1, hb⟩, fun hb => (balanceFits_armed rfl).mpr ⟨hb, h2, h3⟩⟩

/-- A run that succeeds pays one, up to PULLIN_LIMIT (R45). -/
theorem balanceFits_succeed {d : DutyRec} (h : d.balanceFits) (hs : d.state = .running) :
    { d.succeed with state := .running }.balanceFits := by
  obtain ⟨h1, h2, h3⟩ := (balanceFits_running hs).mp h
  rw [balanceFits_running rfl]
  simp only [DutyRec.succeed]
  split <;> refine ⟨?_, ?_, h3⟩ <;> omega

theorem balanceFits_fail {d : DutyRec} (cause : Condition) (position : Nat) (h : d.balanceFits)
    (hs : d.state = .running) : { d.fail cause position with held := true, state := .running }.balanceFits :=
  (balanceFits_running rfl).mpr ((balanceFits_running hs).mp h)

theorem balanceFits_lowered_armed {d : DutyRec} (h : d.balanceFits) (hs : d.state = .armed) (hb : 1 ≤ d.balance) :
    d.lowered.balanceFits := by
  obtain ⟨h1, h2, h3⟩ := (balanceFits_armed hs).mp h
  refine (balanceFits_armed (d := d.lowered) hs).mpr ⟨?_, ?_, h3⟩ <;> simp only [DutyRec.lowered] <;> omega

theorem balanceFits_fallsDue {d : DutyRec} (h : d.balanceFits) (hs : d.state = .armed) (hb : d.balance - 1 < 0) :
    { d.lowered with state := .due }.balanceFits := by
  obtain ⟨h1, h2, h3⟩ := (balanceFits_armed hs).mp h
  refine (balanceFits_due rfl).mpr ⟨?_, hb⟩
  simp only [DutyRec.lowered]
  omega

theorem balanceFits_lowered_due {d : DutyRec} (h : d.balanceFits) (hs : d.state = .due)
    (hb : ¬d.balance = -(d.postponeLimit.toNat : Int)) : d.lowered.balanceFits := by
  obtain ⟨h1, h2⟩ := (balanceFits_due hs).mp h
  refine (balanceFits_due (d := d.lowered) hs).mpr ⟨?_, ?_⟩ <;> simp only [DutyRec.lowered] <;> omega

theorem balanceFits_lowered_running {d : DutyRec} (h : d.balanceFits) (hs : d.state = .running)
    (hb : ¬d.balance = -(d.postponeLimit.toNat : Int)) : d.lowered.balanceFits := by
  obtain ⟨h1, h2, h3⟩ := (balanceFits_running hs).mp h
  refine (balanceFits_running (d := d.lowered) hs).mpr ⟨?_, ?_, h3⟩ <;> simp only [DutyRec.lowered] <;> omega

/-! ## Single updates -/

namespace State.AccountsSound

variable {s : State} {n : Fin 32} {d : DutyRec}

/-- A duty's record may become one that fits, is DUE if it is queued and RUNNING if it is granted. -/
theorem setDuty (h : s.AccountsSound) (hd : d.balanceFits) (hq : n ∈ s.dueQueue → d.state = .due)
    (hg : ∀ p, s.grant = some (.duty n p) → d.state = .running) : (s.setDuty n d).AccountsSound where
  fits k := by
    rw [duty_setDuty]
    split
    · exact hd
    · exact h.fits k
  queued k hk := by
    rw [duty_setDuty]
    split
    · exact hq (‹k = n› ▸ hk)
    · exact h.queued k hk
  runs k p hk := by
    rw [duty_setDuty]
    split
    · exact hg p (‹k = n› ▸ hk)
    · exact h.runs k p hk

/-- A record that keeps the state of a duty need only fit. -/
theorem setDuty_same (h : s.AccountsSound) (hd : d.balanceFits) (hs : d.state = (s.duty n).state) :
    (s.setDuty n d).AccountsSound :=
  h.setDuty hd (fun hq => hs.trans (h.queued n hq)) (fun p hg => hs.trans (h.runs n p hg))

/-- A duty that is neither DUE nor RUNNING is in no queue and holds no grant, so its record need only fit. -/
theorem setDuty_of_idle (h : s.AccountsSound) (hd : d.balanceFits) (h1 : (s.duty n).state ≠ .due)
    (h2 : (s.duty n).state ≠ .running) : (s.setDuty n d).AccountsSound :=
  h.setDuty hd (fun hq => absurd (h.queued n hq) h1) (fun p hg => absurd (h.runs n p hg) h2)

theorem insertDue (h : s.AccountsSound) (hd : (s.duty n).state = .due) : (s.insertDue n).AccountsSound where
  fits := h.fits
  queued k hk := by
    rcases (mem_placeBySlack ..).mp hk with rfl | hk
    · exact hd
    · exact h.queued k hk
  runs := h.runs

theorem removeDue (h : s.AccountsSound) (n : Fin 32) : (s.removeDue n).AccountsSound where
  fits := h.fits
  queued k hk := h.queued k (List.mem_filter.mp hk).1
  runs := h.runs

/-- Without a duty's grant only the records and the queue matter. -/
theorem of_no_grant {t : State} (hf : ∀ k, (t.duty k).balanceFits) (hq : ∀ k ∈ t.dueQueue, (t.duty k).state = .due)
    (hg : ∀ k p, t.grant ≠ some (.duty k p)) : t.AccountsSound :=
  ⟨hf, hq, fun k p hk => absurd hk (hg k p)⟩

theorem endGrant (h : s.AccountsSound) : s.endGrant.AccountsSound := of_no_grant h.fits h.queued (by simp)

/-- Once the grant has ended, the duty that ran may become DUE and enter the queue, or ARMED. -/
theorem settleDuty (h : s.AccountsSound) (hr : (s.duty n).state = .running)
    (hd : { d with state := .running }.balanceFits) : ((s.settleDuty n d).endGrant).AccountsSound := by
  obtain ⟨hdue, harmed⟩ := balanceFits_settle hd
  have notQueued : n ∉ s.dueQueue := fun hq => by rw [h.queued n hq] at hr; cases hr
  have ended : ∀ e : DutyRec, e.balanceFits → (s.endGrant.setDuty n e).AccountsSound := fun e he =>
    h.endGrant.setDuty he (fun hq => absurd hq notQueued) (by simp)
  rcases settleDuty_cases s n d with ⟨hb, e⟩ | ⟨hb, e⟩ <;> rw [e]
  · exact (ended _ (hdue hb)).insertDue (n := n) (by simp)
  · exact ended _ (harmed hb)

/-- An expiry takes one off a balance above its limit, and a balance that falls below 0 makes its duty DUE. -/
theorem expireDuty (h : s.AccountsSound) (n : Fin 32) : (s.expireDuty n).AccountsSound := by
  have hf := h.fits n
  have late : (s.setDuty n (s.duty n).latened).AccountsSound :=
    h.setDuty_same ((balanceFits_congr rfl rfl rfl rfl).mpr hf) rfl
  rw [expireDuty_eq]
  cases hs : (s.duty n).state with
  | idle => exact h
  | faulted => exact h
  | armed =>
    simp only
    split
    · exact (h.setDuty_of_idle (balanceFits_fallsDue hf hs ‹_›) (by simp [hs]) (by simp [hs])).insertDue (by simp)
    · exact h.setDuty_same (balanceFits_lowered_armed hf hs (by omega)) rfl
  | due =>
    simp only [atLimit_iff]
    split
    · exact late
    · have lowered := h.setDuty_same (d := (s.duty n).lowered) (balanceFits_lowered_due hf hs ‹_›) rfl
      exact (lowered.removeDue n).insertDue (n := n) (by simpa using hs)
  | running =>
    simp only [atLimit_iff]
    split
    · exact late
    · exact h.setDuty_same (balanceFits_lowered_running hf hs ‹_›) rfl

theorem runFailed (h : s.AccountsSound) (cause : Condition) {position : Nat} (hg : s.grant = some (.duty n position)) :
    (s.runFailed n cause position).AccountsSound := by
  have hr := h.runs n position hg
  unfold State.runFailed
  simp only
  split
  · exact h.endGrant.setDuty trivial (fun hq => by rw [h.queued n hq] at hr; cases hr) (by simp)
  · exact h.settleDuty hr (balanceFits_fail cause position (h.fits n) hr)

/-- A host write that protection takes leaves the state and the balance of a duty, and reaches only duties out of
service (R61). -/
theorem putHostByte (h : s.AccountsSound) {a : BitVec 13} (v : Byte) (ht : s.takesWrite a = true) :
    (s.putHostByte a v).AccountsSound := by
  unfold State.putHostByte
  split
  · exact ⟨h.fits, h.queued, h.runs⟩
  · exact ⟨h.fits, h.queued, h.runs⟩
  · rename_i n off hp
    have kept : ((s.duty n).setHostByte off v).state = (s.duty n).state ∧
        ((s.duty n).setHostByte off v).balance = (s.duty n).balance := by
      unfold DutyRec.setHostByte
      split <;> exact ⟨rfl, rfl⟩
    have idle : (s.duty n).state = .idle ∨ (s.duty n).state = .faulted := by
      simp only [State.takesWrite, hp, State.configurable, DutyRec.active, Bool.and_eq_true, Bool.not_eq_true',
        Bool.or_eq_false_iff, beq_eq_false_iff_ne] at ht
      obtain ⟨-, ⟨h1, h2⟩, h3⟩ := ht
      cases hs : (s.duty n).state <;> simp_all
    refine h.setDuty_same ?_ kept.1
    have hf := h.fits n
    rcases idle with hs | hs <;> simp only [DutyRec.balanceFits, kept, hs] at hf ⊢
    exact hf
  · exact ⟨h.fits, h.queued, h.runs⟩

/-- A granted duty leaves the queue and runs (R37). -/
theorem grantDuty (h : s.AccountsSound) (hs : (s.duty n).state = .due ∨ (s.duty n).state = .armed) :
    (s.grantDuty n).AccountsSound where
  fits k := by
    change ((s.setDuty n { s.duty n with state := .running }).duty k).balanceFits
    rw [duty_setDuty]
    split
    · exact balanceFits_grant (h.fits n) hs
    · exact h.fits k
  queued k hk := by
    obtain ⟨hq, hne⟩ := List.mem_filter.mp hk
    change ((s.setDuty n { s.duty n with state := .running }).duty k).state = .due
    rw [duty_setDuty, if_neg (by simpa using hne)]
    exact h.queued k hq
  runs k p hk := by
    cases hk
    change ((s.setDuty n { s.duty n with state := .running }).duty n).state = .running
    rw [duty_setDuty, if_pos rfl]

theorem softResetEffects (s : State) : s.softResetEffects.AccountsSound := by
  obtain ⟨_, _, _, e⟩ := softResetEffects_frame s
  refine of_no_grant (fun k => ?_) (fun k hk => ?_) (fun k p hk => ?_)
  · rw [duty_softResetEffects]
    exact rfl
  · rw [e] at hk
    cases hk
  · rw [e] at hk
    cases hk

theorem fullReset (h : s.AccountsSound) : s.fullReset.AccountsSound := by
  refine of_no_grant (fun k => ?_) (fun k hk => ?_) (fun k p hk => ?_)
  · rw [duty_fullReset]
    exact (balanceFits_congr rfl rfl rfl rfl).mpr (h.fits k)
  · rw [fullReset_frame] at hk
    cases hk
  · rw [fullReset_frame] at hk
    cases hk

theorem cleared (s : State) (lines : Byte) : (s.cleared lines).AccountsSound := by
  have zero : ∀ n, State.reset.duty n = DutyRec.zero := by decide
  refine of_no_grant (fun k => ?_) (fun k hk => by cases hk) (fun k p hk => by cases hk)
  rw [show (s.cleared lines).duty k = DutyRec.zero from zero k]
  exact rfl

/-- The accounts read the duties, the due queue and the grant only. -/
theorem of_eq {t : State} (h : s.AccountsSound) (hd : t.duties = s.duties) (hq : t.dueQueue = s.dueQueue)
    (hg : t.grant = s.grant ∨ ∀ k p, t.grant ≠ some (.duty k p)) : t.AccountsSound where
  fits k := by rw [duty_of_duties hd]; exact h.fits k
  queued k hk := by rw [duty_of_duties hd]; exact h.queued k (hq ▸ hk)
  runs k p hk := by
    rw [duty_of_duties hd]
    rcases hg with hg | hg
    · exact h.runs k p (hg ▸ hk)
    · exact absurd hk (hg k p)

end State.AccountsSound

/-- Every act keeps the accounts sound. -/
theorem Act.accountsSound {s t : State} (h : Act s t) (hs : s.AccountsSound) : t.AccountsSound := by
  cases h with
  | quiet e => exact hs.of_eq (by rw [e]) (by rw [e]) (.inl (by rw [e]))
  | hostByte a v h => exact hs.putHostByte v h
  -- duties
  | dutyMarks n d h =>
    refine hs.setDuty_same ?_ (by rw [h])
    rw [h]
    exact (balanceFits_congr rfl rfl rfl rfl).mpr (hs.fits n)
  | arms n ha hv =>
    simp only [DutyRec.active, Bool.or_eq_false_iff, beq_eq_false_iff_ne] at ha
    refine hs.setDuty_of_idle ?_ ha.1.2 ha.2
    simp only [State.dutyValid, Bool.and_eq_true, decide_eq_true_eq] at hv
    exact (balanceFits_armed rfl).mpr ⟨le_refl _, Int.natCast_nonneg _, by tauto⟩
  | disarms n h => exact hs.setDuty_of_idle rfl (by rcases h with h | h <;> simp [h]) (by rcases h with h | h <;> simp [h])
  | disarmsDue n h =>
    exact (hs.removeDue n).setDuty rfl (fun hq => by simp [State.removeDue] at hq) fun p hg => by
      have := hs.runs n p hg
      rw [h] at this
      cases this
  | cuts n h =>
    have hr : (s.duty n).state = .running := h.elim id fun ⟨p, hg⟩ => hs.runs n p hg
    exact hs.endGrant.setDuty rfl (fun hq => by have := hs.queued n hq; rw [hr] at this; cases this) (by simp)
  | expires n h => exact hs.expireDuty n
  | runSucceeds n p hg =>
    have hr := hs.runs n p hg
    exact hs.settleDuty hr (balanceFits_succeed (hs.fits n) hr)
  | runFails n cause p hg => exact hs.runFailed cause hg
  -- grants
  | takes k hf hr hc =>
    cases k with
    | duty n => exact hs.grantDuty ((choice_duty hc).2.imp_left (hs.queued n))
    | channel c =>
      have hg : ∀ k p, (s.grantChannel c).grant ≠ some (.duty k p) := fun k p => by
        rcases grantChannel_cases s c with ⟨_, e⟩ | ⟨_, e⟩ <;> rw [e]
        · simp [State.channelGranted]
        · rw [unitEnd_frame]; simp
      exact hs.of_eq (by rw [State.take, grantChannel_frame]) (by rw [State.take, grantChannel_frame]) (.inr hg)
    | host r =>
      exact hs.of_eq (by rw [State.take, grantHost_frame]) (by rw [State.take, grantHost_frame])
        (.inr fun k p hk => by cases hk)
  | grantEnds => exact hs.endGrant
  | nextPosition n p j k hg he hl =>
    exact ⟨hs.fits, hs.queued, fun m q hm => by cases hm; exact hs.runs n p hg⟩
  | acknowledges c j hg he => exact ⟨hs.fits, hs.queued, fun m q hm => by cases hm⟩
  | unitEnds c x k hg => exact hs.of_eq (by rw [unitEnd_frame]) (by rw [unitEnd_frame]) (.inr (by rw [unitEnd_frame]; simp))
  | requestEnds r c hg hi => exact hs.of_eq rfl rfl (.inr fun k p hk => by cases hk)
  -- resets
  | softResets h => exact .softResetEffects s
  | fullResets => exact hs.fullReset
  | clears lines h => exact .cleared s lines
  -- acts on no account
  | race a v => exact hs.of_eq (by rw [raceWrite_frame]) (by rw [raceWrite_frame]) (.inl (by rw [raceWrite_frame]))
  | stores a o data h =>
    exact hs.of_eq (by rw [storeReceived_frame]) (by rw [storeReceived_frame]) (.inl (by rw [storeReceived_frame]))
  | disposes =>
    exact hs.of_eq (by rw [disposeHeads_frame]) (by rw [disposeHeads_frame]) (.inl (by rw [disposeHeads_frame]))
  | _ => exact ⟨hs.fits, hs.queued, hs.runs⟩

/-- An act keeps the phase, or leaves a part that does not run, or is the end of the clear. -/
theorem Act.phase {s t : State} (h : Act s t) : t.phase = s.phase ∨ t.phase ≠ .running ∨ ∃ lines, t = s.cleared lines := by
  cases h with
  | quiet e => left; rw [e]
  | hostByte a v h => left; rw [putHostByte_frame]
  | race a v => left; rw [raceWrite_frame]
  | stores a o data h => left; rw [storeReceived_frame]
  | expires n h => left; rw [expireDuty_frame]
  | runSucceeds n p h => left; rw [runSucceeded_frame]
  | runFails n x p h => left; rw [runFailed_frame]
  | unitEnds c x k h => left; rw [unitEnd_frame]
  | disposes => left; rw [disposeHeads_frame]
  | takes k =>
    left
    cases k with
    | duty n => rfl
    | channel c => rw [State.take, grantChannel_frame]
    | host r => rw [State.take, grantHost_frame]
  | softResets h =>
    left
    obtain ⟨_, _, _, e⟩ := softResetEffects_frame s
    rw [e]
  | fullResets =>
    right; left
    rw [fullReset_frame]
    exact (by decide : State.reset.phase ≠ .running)
  | releases h => right; left; simp
  | clears lines h => exact .inr (.inr ⟨lines, rfl⟩)
  | _ => exact .inl rfl

/-- What a running part keeps at every act, and has when the clear ends, every step keeps in a running part. -/
theorem step_keeps_running {P : State → Prop} (hP : ∀ {s t}, Act s t → P s → P t) (hc : ∀ s lines, P (State.cleared s lines))
    {s t : State} (h : step s = .next t) (hs : s.phase = .running → P s) : t.phase = .running → P t := by
  refine step_keeps (P := fun u => u.phase = .running → P u) (fun {u v} a hu hv => ?_) h hs
  rcases a.phase with e | e | ⟨lines, e⟩
  · exact hP a (hu (e ▸ hv))
  · exact absurd hv e
  · rw [e]
    exact hc u lines

/-- Settles O57: the accounts, with the queue's DUE duties and the running grant, are kept by each act. -/
theorem accountsStayInBounds : Obligations.AccountsStayInBounds := fun _ _ hq ha h hr =>
  (step_keeps_running Act.accountsSound State.AccountsSound.cleared h
    (fun hp => ⟨ha hp, fun n hn => ((hq hp).1.2 n).mp hn, (hq hp).2.2⟩) hr).fits

end Sys2Proof.Machine
end

section
namespace Sys2Proof.Machine

open Sys2Proof

/-! ## Slack and placement (R10, R31) -/

/-- Slack is the postponement limit, less what a negative balance owes (R10). -/
theorem slack_eq (d : DutyRec) :
    (0 ≤ d.balance → d.slack = d.postponeLimit.toNat) ∧
      (d.balance < 0 → d.slack = d.postponeLimit.toNat + d.balance) := by
  unfold DutyRec.slack DutyRec.owed
  constructor <;> intro h <;> omega

/-- Behind no entry of at most its slack, a duty is placed at the head. -/
theorem placeBySlack_of_all_gt {slack : Fin 32 → Int} {n : Fin 32} {q : List (Fin 32)}
    (h : ∀ e ∈ q, slack n < slack e) : placeBySlack slack n q = n :: q := by
  cases q with
  | nil => rfl
  | cons e q =>
    have : (e :: q).any (fun k => decide (slack k ≤ slack n)) = false := by
      simpa using h
    rw [placeBySlack, this]
    rfl

/-- Where some entry of the queue has at most its slack, a duty is placed behind the first entry. -/
theorem placeBySlack_cons_of_any {slack : Fin 32 → Int} {n e : Fin 32} {q : List (Fin 32)}
    (h : ∃ k ∈ e :: q, slack k ≤ slack n) : placeBySlack slack n (e :: q) = e :: placeBySlack slack n q := by
  rw [placeBySlack, if_pos (by simpa using h)]

/-- A placed duty stands behind the last entry of at most its slack, at the head when there is none (R31). -/
theorem placeBySlack_split (slack : Fin 32 → Int) (n : Fin 32) (q : List (Fin 32)) :
    ∃ before after, q = before ++ after ∧ placeBySlack slack n q = before ++ n :: after ∧
      (before = [] ∨ ∃ front last, before = front ++ [last] ∧ slack last ≤ slack n) ∧
      ∀ e ∈ after, slack n < slack e := by
  induction q with
  | nil => exact ⟨[], [], rfl, rfl, .inl rfl, by simp⟩
  | cons e q ih =>
    by_cases h : ∃ k ∈ e :: q, slack k ≤ slack n
    · obtain ⟨before, after, hq, hp, hl, ha⟩ := ih
      refine ⟨e :: before, after, by rw [hq]; rfl, by rw [placeBySlack_cons_of_any h, hp]; rfl, .inr ?_, ha⟩
      rcases hl with rfl | ⟨front, last, rfl, hl⟩
      · obtain ⟨k, hk, hle⟩ := h
        rcases List.mem_cons.mp hk with rfl | hk
        · exact ⟨[], k, rfl, hle⟩
        · exact absurd (ha k (by simpa [hq] using hk)) (by omega)
      · exact ⟨e :: front, last, rfl, hl⟩
    · push Not at h
      exact ⟨[], e :: q, rfl, placeBySlack_of_all_gt h, .inl rfl, h⟩

/-- Placement keeps slack order (R31). -/
theorem placeBySlack_pairwise {slack : Fin 32 → Int} {q : List (Fin 32)} (n : Fin 32)
    (h : q.Pairwise (fun a b => slack a ≤ slack b)) :
    (placeBySlack slack n q).Pairwise (fun a b => slack a ≤ slack b) := by
  obtain ⟨before, after, hq, hp, hl, ha⟩ := placeBySlack_split slack n q
  rw [hq, List.pairwise_append] at h
  obtain ⟨hb, hafter, hba⟩ := h
  have hn : ∀ a ∈ before, slack a ≤ slack n := by
    rcases hl with rfl | ⟨front, last, rfl, hl⟩
    · simp
    · intro a hmem
      rcases List.mem_append.mp hmem with hf | hlast
      · exact ((List.pairwise_append.mp hb).2.2 a hf last (by simp)).trans hl
      · rw [List.mem_singleton.mp hlast]
        exact hl
  rw [hp, List.pairwise_append]
  refine ⟨hb, List.pairwise_cons.mpr ⟨fun e he => (ha e he).le, hafter⟩, fun a hmem b hb' => ?_⟩
  rcases List.mem_cons.mp hb' with rfl | hb'
  · exact hn a hmem
  · exact hba a hmem b hb'

/-- Settles O10, by the place at which the recursion inserts. -/
theorem placementFollowsSlack : Obligations.PlacementFollowsSlack :=
  ⟨fun s n => slack_eq (s.duty n), fun slack n q => ⟨placeBySlack_split slack n q, placeBySlack_pairwise n⟩⟩

end Sys2Proof.Machine
end

section
namespace Sys2Proof.Machine

open Sys2Proof

/-! ## The checks of a duty record (R24) -/

/-- The kind of a transaction record by its code (R70). -/
theorem transactionKind_invalid_iff (s : State) (i : Nat) :
    s.transactionKind i = .invalid ↔ (s.memByte (transactionAddress i)).toNat % 4 = 0 := by
  unfold State.transactionKind
  split <;> simp_all
  omega

theorem transactionKind_readCompare_iff (s : State) (i : Nat) :
    s.transactionKind i = .readCompare ↔ (s.memByte (transactionAddress i)).toNat % 4 = 3 := by
  unfold State.transactionKind
  split <;> simp_all

/-- A transaction record passes exactly the checks of R24, on its bytes. -/
theorem transactionValid_iff (s : State) (i : Nat) :
    let byte := fun k => memRead s.mem (0x0900 + 8 * i + k)
    s.transactionValid i = true ↔
      (byte 0).toNat % 4 ≠ 0 ∧ (1 ≤ (byte 2).toNat ∧ (byte 2).toNat ≤ 4) ∧
        ((byte 0).toNat % 4 = 3 → ∃ k, k < (byte 2).toNat ∧ (byte 0).getLsbD (4 + k) = true) := by
  have hk := transactionKind_invalid_iff s i
  have hc := transactionKind_readCompare_iff s i
  simp only [State.memByte, transactionAddress, Config.transactionBase] at hk hc
  simp only [State.transactionValid, Bool.and_eq_true, Bool.or_eq_true, bne_iff_ne, decide_eq_true_eq, ne_eq, hk, hc,
    List.any_eq_true, List.mem_range]
  simp only [State.transactionLength, State.compareEnable, State.memByte, transactionAddress, Config.transactionBase,
    Nat.add_zero, and_assoc, imp_iff_not_or]

/-- Settles O14, conjunct by conjunct of the check. -/
theorem dutyRecordsAreCheckedAsListed : Obligations.DutyRecordsAreCheckedAsListed := by
  intro s n
  have policy : ((s.duty n).holds || (s.duty n).wakes) = true ↔
      (s.duty n).quietPolicy = 0 ∨ (s.duty n).quietPolicy = 1 := by
    simp [DutyRec.holds, DutyRec.wakes]
  have interval : (s.duty n).interval ≠ 0 ↔ 1 ≤ (s.duty n).interval.toNat := by
    rw [BitVec.toNat_ne]
    simp
    omega
  have list : (∀ k < (s.duty n).listLength.toNat, s.transactionValid ((s.duty n).listFirst.toNat + k) = true) ↔
      ∀ i, (s.duty n).listFirst.toNat ≤ i → i < (s.duty n).listFirst.toNat + (s.duty n).listLength.toNat →
        s.transactionValid i = true := by
    refine ⟨fun h i h1 h2 => ?_, fun h k hk => h _ (by omega) (by omega)⟩
    have := h (i - (s.duty n).listFirst.toNat) (by omega)
    rwa [Nat.add_sub_cancel' h1] at this
  simp only [State.dutyValid, Bool.and_eq_true, decide_eq_true_eq, bne_iff_ne, interval, policy, List.all_eq_true,
    List.mem_range, list]
  simp only [transactionValid_iff, and_assoc]

end Sys2Proof.Machine
end

section
namespace Sys2Proof.Machine

open Sys2Proof

/-! ## Reset -/

/-- Settles O3: each value is the one that `State.reset` is written with. -/
theorem resetGivesTheStatedValues : Obligations.ResetGivesTheStatedValues := by
  have latches : ∀ r, State.reset.latch r = none := by intro r; cases r <;> rfl
  have holds : ∀ w, State.reset.hold w = none := by intro w; cases w <;> rfl
  have staged : ∀ k : Fin 8, State.reset.staging[k] = 0 := by decide
  exact ⟨rfl, rfl, rfl, rfl, rfl, rfl, rfl, rfl, rfl, rfl, rfl, rfl, rfl, rfl, rfl, by decide, by decide, rfl, rfl, rfl, rfl,
    rfl, rfl, rfl, rfl, rfl, rfl, by decide, by decide, latches, holds, staged⟩

/-- Settles O60: after reset nothing is queued, granted, active or off its setting; the clear only lets the part run. -/
theorem invariantsHoldAfterReset : Obligations.InvariantsHoldAfterReset := by
  have settings : State.reset.settingsInRange := by unfold State.settingsInRange; decide
  have pending : State.reset.pendingBounded := by unfold State.pendingBounded; decide
  have targets : ∀ t, (State.reset.target t).state = .offline := by decide
  have channels : ∀ c, (State.reset.channel c).active = false := by decide
  have duties : ∀ n, (State.reset.duty n).state = .idle := by decide
  have idle : ∀ n, (State.reset.duty n).active = false := by decide
  have accounts : ∀ n, (State.reset.duty n).balanceFits := (State.AccountsSound.cleared .reset 0).fits
  have queue : ∀ s : State, s.dueQueue = [] → s.grant = none → (∀ n, (s.duty n).state = .idle) → s.queueKept :=
    fun s hq hg hd _ => ⟨⟨by simp [hq], fun n => by simp [hq, hd]⟩, by simp [State.dueQueueOrdered, hq],
      fun n p h => by simp [hg] at h⟩
  have busy : State.reset.busKept := ⟨rfl, fun _ => rfl⟩
  intro lines s hs
  rcases List.mem_pair.mp hs with rfl | rfl
  · refine ⟨settings, by decide, hostWaitBounded_of_zero rfl, pending, queue _ rfl rfl duties, fun _ => accounts, busy, ?_, ?_⟩
    · exact fun f h => by cases h
    · exact fun h => by cases h
  · refine ⟨settings, (by decide : State.reset.slotsHeld ≤ 8), hostWaitBounded_of_zero rfl, pending,
      queue _ rfl rfl duties, fun _ => accounts, ⟨rfl, fun _ => rfl⟩, fun f h => (by cases h), fun _ => ?_⟩
    exact ⟨rfl, fun t h => absurd (targets t) h, fun r h => (by rcases h with h | h <;> cases h),
      fun n h => absurd ((idle n).symm.trans h) Bool.false_ne_true,
      fun c h => absurd ((channels c).symm.trans h) Bool.false_ne_true, fun n p h => (by cases h),
      fun c k h => (by cases h), fun f h => (by cases h)⟩

/-! ## Taking a command (R180) -/

section
variable {s t : State} {code : Byte} {owner : State → Reply}

theorem command_taken (hp : s.phase = .running) (hu : s.unit = .ready) :
    s.command code owner = (owner { s with cmdCode := code }).conclude.settle := by
  unfold State.command
  rw [if_neg (by simp [hp]), if_neg (by simp [hu])]

/-- A command taken whose owner answers with a result. -/
theorem command_answered {x : Result} (hp : s.phase = .running) (hu : s.unit = .ready)
    (h : owner { s with cmdCode := code } = ⟨t, some x⟩) :
    (.next (s.command code owner) : Host.Outcome State Fault Refusal) =
      .next { t with cmdResult := x.code, commandDone := true }.settle := by
  rw [command_taken hp hu, h]
  rfl

/-- A command taken whose owner must wait. -/
theorem command_waits (hp : s.phase = .running) (hu : s.unit = .ready)
    (h : owner { s with cmdCode := code } = ⟨t, none⟩) :
    (.next (s.command code owner) : Host.Outcome State Fault Refusal) =
      .next { t with unit := .pending, cmdResult := 0xFF }.settle := by
  rw [command_taken hp hu, h]
  rfl

end

end Sys2Proof.Machine
end

section
namespace Sys2Proof.Machine

open Sys2Proof

/-! ## ARM_DUTY and DISARM_DUTY (R23, R25) -/

section
variable {s : State} {n : Fin 32}

theorem ownArmDuty_badOperand (h : 31 < s.cmdOperand.toNat) : s.ownArmDuty = ⟨s, some .badOperand⟩ := if_pos h

/-- ARM_DUTY of an index in range: the checks behind the operand's (R23). -/
theorem ownArmDuty_eq (h : s.cmdOperand.toNat ≤ 31) (hn : n = dutyIndex s.cmdOperand) : s.ownArmDuty =
    if (s.duty n).active then ⟨s, some .wrongState⟩
    else if s.dutyValid n then ⟨s.setDuty n (s.duty n).arm, some .ok⟩
    else ⟨s, some .invalidRecord⟩ := by
  subst hn
  exact if_neg (Nat.not_lt.mpr h)

theorem disarmDuty_badOperand (h : 31 < s.cmdOperand.toNat) : s.disarmDuty = ⟨s, some .badOperand⟩ := if_pos h

/-- DISARM_DUTY of an index in range acts by the state of its duty (R25). -/
theorem disarmDuty_eq (h : s.cmdOperand.toNat ≤ 31) (hn : n = dutyIndex s.cmdOperand) : s.disarmDuty =
    match (s.duty n).state with
    | .idle => ⟨s, some .wrongState⟩
    | .running =>
      if s.runFrameOnBus n then ⟨s.setDuty n { s.duty n with disarmPending := true }, none⟩
      else ⟨s.cutRun n, some .ok⟩
    | .armed => ⟨s.setDuty n (s.duty n).disarm, some .ok⟩
    | .due => ⟨(s.removeDue n).setDuty n (s.duty n).disarm, some .ok⟩
    | .faulted => ⟨s.setDuty n (s.duty n).disarm, some .ok⟩ := by
  subst hn
  exact if_neg (Nat.not_lt.mpr h)

theorem runFrameOnBus_of_grant {position : Nat} (h : s.grant = some (.duty n position)) :
    s.runFrameOnBus n = s.frameOnBus.isSome := by
  simp [State.runFrameOnBus, h]

end

/-- Settles O13, by the order of the checks. -/
theorem armDutyFollowsItsOrder : Obligations.ArmDutyFollowsItsOrder := by
  intro s hp hu u n d
  let w : State := { s with cmdCode := 0x01 }
  have taken : ∀ (t : State) (x : Result), w.ownArmDuty = ⟨t, some x⟩ →
      exec .armDuty s = .next { t with cmdResult := x.code, commandDone := true }.settle :=
    fun t x h => command_answered hp hu h
  have checks (h : s.cmdOperand.toNat ≤ 31) := ownArmDuty_eq (s := w) (n := n) h rfl
  have inactive : d.state = .idle ∨ d.state = .faulted → ¬(w.duty n).active = true := fun h => by
    rw [show (w.duty n).active = false from (not_active_iff d).mpr h]
    exact Bool.false_ne_true
  refine ⟨fun h => taken w .badOperand (ownArmDuty_badOperand h), fun h hs => taken w .wrongState ?_,
    fun h hs hv => taken w .invalidRecord ?_, fun h hs hv => taken (w.setDuty n d.arm) .ok ?_⟩
  · rw [checks h, if_pos (show (w.duty n).active = true from (active_iff d).mpr hs)]
  · rw [checks h, if_neg (inactive hs), if_neg (by rw [show w.dutyValid n = false from hv]; exact Bool.false_ne_true)]
  · rw [checks h, if_neg (inactive hs), if_pos (show w.dutyValid n = true from hv)]
    rfl

/-- Settles O17, by the state of the duty. -/
theorem disarmDutyActsByState : Obligations.DisarmDutyActsByState := by
  intro s hp hu hg u n d idle
  have owner : State.ownDisarmDuty u = u.disarmDuty := congrArg State.disarmDuty (firstCheck_of_ne (s := u) hg)
  have taken : ∀ (t : State) (x : Result), u.disarmDuty = ⟨t, some x⟩ →
      exec .disarmDuty s = .next { t with cmdResult := x.code, commandDone := true }.settle :=
    fun t x h => command_answered hp hu (owner.trans h)
  have waits : ∀ t : State, u.disarmDuty = ⟨t, none⟩ →
      exec .disarmDuty s = .next { t with unit := .pending, cmdResult := 0xFF }.settle :=
    fun t h => command_waits hp hu (owner.trans h)
  have byState (h : s.cmdOperand.toNat ≤ 31) := disarmDuty_eq (s := u) (n := n) h rfl
  refine ⟨fun h => taken u .badOperand (disarmDuty_badOperand h), fun h hs => taken u .wrongState ?_,
    fun h hs => taken (u.setDuty n idle) .ok ?_, fun h hs => taken ((u.removeDue n).setDuty n idle) .ok ?_,
    fun h hs hd hf => waits (u.setDuty n { d with disarmPending := true }) ?_⟩
  · rw [byState h, show (u.duty n).state = .idle from hs]
  · rcases hs with hs | hs <;> rw [byState h, show (u.duty n).state = _ from hs] <;> rfl
  · rw [byState h, show (u.duty n).state = .due from hs]
    rfl
  · obtain ⟨p, hd⟩ := hd
    have frame : u.runFrameOnBus n = true :=
      (runFrameOnBus_of_grant (s := u) hd).trans (Option.isSome_iff_ne_none.mpr hf)
    rw [byState h, show (u.duty n).state = .running from hs]
    exact if_pos frame

end Sys2Proof.Machine
end

section
namespace Sys2Proof.Machine

open Sys2Proof

/-! ## The end of a frame (R141, R146) -/

section
variable {s : State} {a : Attempt} {c : Instr} {o : FrameOutcome} {data : List Sample}

/-- The command that brings the end of the attempt on the bus ends that attempt. -/
theorem exec_of_endsBy (he : s.engine = .attempt a) (hc : a.endsBy c o data) :
    exec c s = .next (s.attemptOver a o data).settle := by
  have hs : s.firstCheck = s := firstCheck_of_ne (by simp [he])
  rcases hc with ⟨status, rfl, rfl⟩ | ⟨rfl, rfl, rfl, hk, hp⟩
  · show execAttemptEnd status data s = _
    unfold execAttemptEnd
    rw [hs]
    simp only [he]
  · have handshakes : a.handshakes = true := by simp [Attempt.handshakes, hk, hp]
    show execReadyTimeout s = _
    unfold execReadyTimeout
    rw [hs]
    simp only [he, handshakes, if_true]

/-- The last attempt of a frame ends the frame: the target table counts it and the requester applies its rule. -/
theorem attemptOver_of_last (hl : a.last o) (hr : s.softResetPending = false) :
    s.attemptOver a o data =
      ((s.countOutcome a.frame.target a.frame.kind o).requesterOutcome a o data).completeOffline a.frame.target := by
  rcases attemptOver_cases s a o data with ⟨h, hcount, _⟩ | ⟨_, e⟩
  · exact absurd ⟨h, hcount⟩ hl
  · rw [e]
    unfold State.frameOutcome
    simp only
    rw [if_neg (by simp [hr])]

theorem requesterOutcome_of_duty {n : Fin 32} {position : Nat} (hg : s.grant = some (.duty n position)) :
    s.requesterOutcome a o data =
      if (s.duty n).disarmPending then (s.storeReceived a.frame o data).startInterGap 0
      else (s.storeReceived a.frame o data).dutyFrameEnd n position a.frame o data := by
  unfold State.requesterOutcome
  simp only [hg]

/-- The end of the last attempt of a frame of a run: the run's own rule, between the count of the target table and a
TARGET_OFFLINE that waits for the frame. -/
theorem exec_runFrame {n : Fin 32} {position : Nat} (he : s.engine = .attempt a)
    (hg : s.grant = some (.duty n position)) (hr : s.softResetPending = false) (hc : a.endsBy c o data)
    (hl : a.last o) :
    let u := s.countOutcome a.frame.target a.frame.kind o
    exec c s = .next ((if (s.duty n).disarmPending then (u.storeReceived a.frame o data).startInterGap 0
      else (u.storeReceived a.frame o data).dutyFrameEnd n position a.frame o data).completeOffline
        a.frame.target).settle := by
  intro u
  rw [exec_of_endsBy he hc, attemptOver_of_last hl hr, requesterOutcome_of_duty (s := u) hg]
  rfl

end

/-! ## The cut (R26) -/

section
variable {s : State} {n : Fin 32} {position : Nat}

theorem cutDue_eq (hg : s.grant = some (.duty n position)) (hf : s.frameOnBus = none) :
    s.cutDue = if (s.duty n).disarmPending then some n else none := by
  unfold State.cutDue
  simp only [hg, hf]

/-- A cut on a command unit that is READY is the cut of the deferred command. -/
theorem cutRun_of_ready (h : s.unit = .ready) : s.cutRun n = { s.cutRun n with unit := .ready } := by
  rw [← h]
  rfl

theorem cutDue_of_frame (hf : s.frameOnBus ≠ none) : s.cutDue = none := by
  unfold State.cutDue
  split
  · exact absurd ‹_› hf
  · rfl

end

/-- Settles O18: RUN_CUT and INTER_FRAME_GAP_END cut the run that `cutDue` names, DISARM_DUTY cuts a run between frames
itself, and the frame before the cut is the end of a frame of a run with DISARM_PENDING. -/
theorem cutEndsTheRunUncounted : Obligations.CutEndsTheRunUncounted := by
  intro s n position hg idle cut
  have cutAt : ∀ t : State, t.cutDue = some n → exec .runCut t = .next (t.cutRun n).completeCommand.settle :=
    fun t h => by
      show execRunCut t = _
      simp only [execRunCut, h]
  have noCut : s.cutDue = none → exec .runCut s = .next s := fun h => by
    show execRunCut s = _
    simp only [execRunCut, h, noEvent]
  refine ⟨fun hf hd => ⟨?_, fun k he hr => ?_⟩, fun h => noCut ?_, fun hp hu hf hn hs ho => ?_,
    fun a c o data he hd hr hc hl => ?_⟩
  · exact cutAt s (by rw [cutDue_eq hg hf, if_pos hd])
  · show execInterFrameGapEnd s = _
    simp only [execInterFrameGapEnd, he, hr, State.continueGrant, hg, hd, if_true]
    rfl
  · rcases h with hf | hd
    · exact cutDue_of_frame hf
    · by_cases hf : s.frameOnBus = none
      · rw [cutDue_eq hg hf, if_neg (by simp [hd])]
      · exact cutDue_of_frame hf
  · let u : State := { s with cmdCode := 0x02 }
    have index : n = dutyIndex u.cmdOperand := by
      apply Fin.ext
      show n.val = s.cmdOperand.toNat % 32
      omega
    have owner : State.ownDisarmDuty u = ⟨u.cutRun n, some .ok⟩ := by
      rw [show State.ownDisarmDuty u = u.disarmDuty from congrArg State.disarmDuty (firstCheck_of_ne (s := u) hn),
        disarmDuty_eq (s := u) (n := n) (by show s.cmdOperand.toNat ≤ 31; omega) index,
        show (u.duty n).state = .running from hs]
      exact if_neg (by rw [runFrameOnBus_of_grant (s := u) hg, show u.frameOnBus = none from hf]; simp)
    rw [cutRun_of_ready (s := u) hu] at owner
    exact command_answered (t := { u.cutRun n with unit := .ready }) (x := .ok) hp hu owner
  · intro u
    rw [exec_runFrame he hg hr hc hl, if_pos hd]
    rfl

end Sys2Proof.Machine
end

section
namespace Sys2Proof.Machine

open Sys2Proof

/-! ## The failure of a run (R47, R20, R21) -/

section
variable {s : State} {n : Fin 32} {position : Nat} {f : Frame} {o : FrameOutcome} {data : List Sample}

theorem dutyFrameEnd_of_ne_ok (h : o ≠ .ok) : s.dutyFrameEnd n position f o data = s.runFailed n o.condition position :=
  if_pos h

theorem dutyFrameEnd_of_mismatch (ho : o = .ok) (hf : f.kind ≠ .sync)
    (hk : s.transactionKind (s.recordAt n position) = .readCompare)
    (hc : s.comparesEqual f (s.recordAt n position) data = false) :
    s.dutyFrameEnd n position f o data = s.runFailed n .mismatch position := by
  unfold State.dutyFrameEnd
  rw [if_neg (by simp [ho]), if_neg hf]
  exact if_pos (by simp [hk, hc])

/-- A READ_COMPARE stores nothing (R41). -/
theorem storeReceived_of_readCompare {i : Nat} (hp : f.path = .record i) (hk : s.transactionKind i = .readCompare) :
    s.storeReceived f o data = s := by
  unfold State.storeReceived
  split
  · simp [hp, hk]
  · rfl

/-- One enabled byte that differs makes the comparison fail. -/
theorem comparesEqual_of_ne {i k : Nat} (hk : k < f.length) (he : s.compareEnable i k = true)
    (hd : (receivedBytes f data).getD k 0xFF ≠ s.memByte (0x0904 + 8 * i + k)) : s.comparesEqual f i data = false := by
  have address : transactionData i = 0x0904 + 8 * i := by
    unfold transactionData transactionAddress Config.transactionBase
    omega
  rw [← Bool.not_eq_true, State.comparesEqual, List.all_eq_true]
  intro h
  have equal := h k (List.mem_range.mpr hk)
  rw [he, address] at equal
  exact hd (by simpa using equal)

variable {cause : Condition}

theorem faults_iff (d : DutyRec) :
    d.faults cause = true ↔ cause ≠ .targetDown ∧ d.consecFails + 1 = d.faultThreshold := by
  simp [DutyRec.faults]

/-- The record of a failed run, with CONSEC_FAILS by the causes that count (R20). -/
theorem fail_eq (d : DutyRec) : d.fail cause position =
    { d with
      lastFailure := cause, failPosition := BitVec.ofNat 8 position, noticeRunFailed := true
      consecFails := if cause ≠ .targetDown then d.consecFails + 1 else d.consecFails } := by
  unfold DutyRec.fail
  rw [ite_not]

theorem runFailed_of_faults (h : (s.duty n).faults cause = true) : s.runFailed n cause position =
    (s.setDuty n { (s.duty n).fail cause position with
      state := .faulted, held := false, stale := false, noticeFault := true }).endGrant := if_pos h

theorem runFailed_of_not (h : ¬(s.duty n).faults cause = true) : s.runFailed n cause position =
    (s.settleDuty n { (s.duty n).fail cause position with held := true }).endGrant := if_neg h

theorem duty_runFailed_ne {m : Fin 32} (h : m ≠ n) : (s.runFailed n cause position).duty m = s.duty m := by
  by_cases hf : (s.duty n).faults cause = true
  · rw [runFailed_of_faults hf]
    simp [h]
  · rw [runFailed_of_not hf]
    rcases settleDuty_cases s n { (s.duty n).fail cause position with held := true } with ⟨_, e⟩ | ⟨_, e⟩ <;>
      simp [e, h]

end

/-- Settles O48: the end of the frame reaches `runFailed`, and that faults the duty or holds and settles it. -/
theorem failedRunHoldsOrFaults : Obligations.FailedRunHoldsOrFaults := by
  intro s n cause position d counted e u
  have failed : d.fail cause position = e := fail_eq d
  refine ⟨fun a c o data he hg hr hd hc hl => ?_, runFailed_frame s n cause position,
    fun m hm => duty_runFailed_ne hm, fun hc ht => ?_, fun h => ?_⟩
  · intro fails
    have ended := exec_runFrame he hg hr hc hl
    simp only [show (s.duty n).disarmPending = false from hd, Bool.false_eq_true, if_false] at ended
    refine ⟨fun ho => ?_, fun ho hk i k hi hp htk hlen hen hne => ?_⟩
    · rw [storeReceived_of_not data (.inr ho), dutyFrameEnd_of_ne_ok ho] at ended
      exact ended
    · subst hi
      let v := s.countOutcome a.frame.target a.frame.kind o
      have compared : v.transactionKind (v.recordAt n position) = .readCompare := htk
      rw [storeReceived_of_readCompare (s := v) hp compared,
        dutyFrameEnd_of_mismatch (s := v) ho (by simp [hk]) compared
          (comparesEqual_of_ne (s := v) hlen hen hne)] at ended
      exact ended
  · have faulted : u = _ := runFailed_of_faults ((faults_iff d).mpr ⟨hc, ht⟩)
    rw [faulted, failed]
    exact ⟨rfl, by simp⟩
  · have settled : u = _ := runFailed_of_not (mt (faults_iff d).mp h)
    rw [settled, failed]
    rcases settleDuty_cases s n { e with held := true } with ⟨hb, w⟩ | ⟨hb, w⟩ <;> rw [w]
    · exact ⟨fun _ => ⟨by simp, rfl⟩, fun h0 => absurd hb (Int.not_lt.mpr h0)⟩
    · exact ⟨fun h0 => absurd h0 (Int.not_lt.mpr hb), fun _ => ⟨by simp, rfl⟩⟩

end Sys2Proof.Machine
end

section
namespace Sys2Proof.Machine

open Sys2Proof

/-! ## Writes of the setting registers (R176, R178) -/

section
variable {s : State} {v : Byte}

/-- While the part runs, a write reaches the register at its offset. -/
theorem windowWrite_of_running (hp : s.phase = .running) (off : BitVec 6) :
    (.next (s.windowWrite off v) : Host.Outcome State Fault Refusal) = .next (s.writeRunning off v) :=
  congrArg _ (if_pos hp)

theorem writeClock_of_range (h : 8 ≤ v.toNat ∧ v.toNat ≤ 32) : s.writeClock v = { s with clockMhz := v } := if_pos h

theorem writeClock_out_of_range (h : v.toNat < 8 ∨ 32 < v.toNat) : s.writeClock v = s := if_neg (by omega)

theorem writeBusDiv_of_range (h : 2 ≤ v.toNat ∧ v.toNat ≤ 64) : s.writeBusDiv v = { s.atAccess with busDiv := v } :=
  if_pos h

theorem writeBusDiv_out_of_range (h : v.toNat < 2 ∨ 64 < v.toNat) : s.writeBusDiv v = s := if_neg (by omega)

theorem atAccess_of_ne (h : s.engine ≠ .granted) : s.atAccess = s := if_neg h

theorem atAccess_of_granted (h : s.engine = .granted) : s.atAccess = s.besideCheck := if_pos h

theorem offer_tickPeriod {w : Half} (h : 10 ≤ w.toNat) : s.offer .tickPeriod w = { s with tickPeriod := w } := if_pos h

theorem offer_tickPeriod_out_of_range {w : Half} (h : w.toNat < 10) : s.offer .tickPeriod w = s := if_neg (by omega)

theorem offer_wakeUs {w : Half} (h : 1 ≤ w.toNat ∧ w.toNat ≤ 4095) : s.offer .wakeUs w = { s with wakeUs := w } :=
  if_pos h

theorem offer_wakeUs_out_of_range {w : Half} (h : w = 0 ∨ 4095 < w.toNat) : s.offer .wakeUs w = s :=
  if_neg fun hr => by
    rcases h with rfl | h
    · simp at hr
    · omega

end

/-- Settles O29: the write of each register, by the range of the value that it offers. -/
theorem settingsTakeValuesInRange : Obligations.SettingsTakeValuesInRange := by
  intro s v hp held
  have taken : ∀ {c : Instr} {off : BitVec 6} {t : State}, exec c s = .next (s.windowWrite off v) →
      s.writeRunning off v = t → exec c s = .next t :=
    fun hc ht => hc.trans ((windowWrite_of_running hp _).trans (congrArg _ ht))
  refine ⟨fun h => ?_, fun h => ?_, fun h => ⟨fun he => ?_, fun he => ?_⟩, fun h => ?_, ?_,
    ⟨(s.setHold .tmPtr none).offer .tmPtr (held .tmPtr), ?_, rfl, ?_⟩, fun h => ?_, fun h => ?_, fun h => ?_,
    fun h => ?_, ?_⟩
  · exact taken (off := 0x28) rfl (writeClock_of_range h)
  · exact taken (off := 0x28) rfl (writeClock_out_of_range h)
  · exact taken (off := 0x2E) rfl ((writeBusDiv_of_range h).trans (by rw [atAccess_of_ne he]))
  · refine taken (off := 0x2E) rfl ((writeBusDiv_of_range h).trans ?_)
    rw [atAccess_of_granted he]
    rfl
  · exact taken (off := 0x2E) rfl (writeBusDiv_out_of_range h)
  · exact taken (off := 0x2F) (t := s.writePullin v) rfl rfl
  · exact taken (off := 0x09) (t := s.writeHigh .tmPtr v) rfl rfl
  · exact BitVec.toNat_setWidth 13 (held .tmPtr)
  · exact taken (off := 0x2B) rfl (offer_tickPeriod (s := s.setHold .tickPeriod none) h)
  · exact taken (off := 0x2B) rfl (offer_tickPeriod_out_of_range (s := s.setHold .tickPeriod none) h)
  · exact taken (off := 0x2D) rfl (offer_wakeUs (s := s.setHold .wakeUs none) h)
  · exact taken (off := 0x2D) rfl (offer_wakeUs_out_of_range (s := s.setHold .wakeUs none) h)
  · exact taken (off := 0x31) (t := s.writeHigh .lineEdge v) rfl rfl

end Sys2Proof.Machine
end

/-!
SUPPORT. The due queue: what each act leaves of its exactness, of its order by slack and of the duty that runs apart from
it (R30, R31, R37).
-/

section
namespace Sys2Proof.Machine

open Sys2Proof

/-! ## A granted duty runs (R37) -/

theorem grantRuns_setDuty {s : State} {n : Fin 32} {d : DutyRec} (hs : s.grantRuns)
    (hd : (s.duty n).state = .running → d.state = .running) : (s.setDuty n d).grantRuns := fun k p hk => by
  rw [duty_setDuty]
  split
  · rename_i e
    exact hd (e ▸ hs k p hk)
  · exact hs k p hk

theorem grantRuns_of_no_grant {s : State} (h : ∀ n p, s.grant ≠ some (.duty n p)) : s.grantRuns :=
  fun n p hg => absurd hg (h n p)

theorem grantRuns_expireDuty {s : State} (n : Fin 32) (hs : s.grantRuns) : (s.expireDuty n).grantRuns := by
  rw [expireDuty_eq]
  cases h : (s.duty n).state with
  | idle => exact hs
  | faulted => exact hs
  | armed =>
    simp only
    split
    · exact grantRuns_setDuty (d := { (s.duty n).lowered with state := .due }) hs (by simp [h])
    · exact grantRuns_setDuty hs (by simp)
  | due =>
    simp only
    split
    · exact grantRuns_setDuty hs (by simp)
    · exact grantRuns_setDuty (d := (s.duty n).lowered) hs (by simp)
  | running =>
    simp only
    split
    · exact grantRuns_setDuty hs (by simp)
    · exact grantRuns_setDuty hs (by simp)

/-- A host write reaches the host fields of a duty, never its state (R60). -/
theorem state_setHostByte (d : DutyRec) (off : Nat) (v : Byte) : (d.setHostByte off v).state = d.state := by
  unfold DutyRec.setHostByte
  split <;> rfl

theorem grantRuns_putHostByte {s : State} (a : BitVec 13) (v : Byte) (hs : s.grantRuns) :
    (s.putHostByte a v).grantRuns := by
  unfold State.putHostByte
  split
  · exact hs
  · exact hs
  · exact grantRuns_setDuty hs fun h => (state_setHostByte ..).trans h
  · exact hs

theorem grantRuns_grantDuty (s : State) (n : Fin 32) : (s.grantDuty n).grantRuns := fun k p hk => by
  cases hk
  change ((s.setDuty n { s.duty n with state := .running }).duty n).state = .running
  rw [duty_setDuty, if_pos rfl]

/-- Granted channels hold the grant or end it; neither names a duty. -/
theorem grant_grantChannel_ne (s : State) (c : Fin 16) (n : Fin 32) (p : Nat) :
    (s.grantChannel c).grant ≠ some (.duty n p) := by
  rcases grantChannel_cases s c with ⟨_, e⟩ | ⟨_, e⟩ <;> rw [e]
  · simp [State.channelGranted]
  · rw [unitEnd_frame]
    simp

theorem grantRuns_cleared (s : State) (lines : Byte) : (s.cleared lines).grantRuns :=
  grantRuns_of_no_grant (by simp [State.cleared, State.reset])

/-- Every act leaves a granted duty RUNNING. -/
theorem Act.grantRuns {s t : State} (h : Act s t) (hs : s.grantRuns) : t.grantRuns := by
  cases h with
  | quiet e => rw [e]; exact hs
  | hostByte a v h => exact grantRuns_putHostByte a v hs
  -- duties
  | dutyMarks n d h => exact grantRuns_setDuty hs fun hr => by rw [h]; exact hr
  | arms n ha hv =>
    exact grantRuns_setDuty hs fun hr => by simp [DutyRec.active, hr] at ha
  | disarms n h => exact grantRuns_setDuty hs fun hr => by simp [hr] at h
  | disarmsDue n h => exact grantRuns_setDuty (s := s.removeDue n) hs fun hr => by simp [h] at hr
  | cuts n h => exact grantRuns_of_no_grant (by simp [State.cutRun])
  | expires n h => exact grantRuns_expireDuty n hs
  | runSucceeds n p hg => exact grantRuns_of_no_grant (by rw [runSucceeded_frame]; simp)
  | runFails n x p hg => exact grantRuns_of_no_grant (by rw [runFailed_frame]; simp)
  -- grants
  | takes k hf hr hc =>
    cases k with
    | duty n => exact grantRuns_grantDuty s n
    | channel c => exact grantRuns_of_no_grant (grant_grantChannel_ne s c)
    | host r => exact grantRuns_of_no_grant (by rw [State.take, grantHost_frame]; simp)
  | grantEnds => exact grantRuns_of_no_grant (by simp)
  | nextPosition n p j k hg he hl => exact fun m q hm => by cases hm; exact hs n p hg
  | acknowledges c j hg he => exact grantRuns_of_no_grant (by simp)
  | unitEnds c x k hg => exact grantRuns_of_no_grant (by rw [unitEnd_frame]; simp)
  | requestEnds r c hg hi => exact grantRuns_of_no_grant (by simp [State.requestEnd])
  -- resets
  | softResets h =>
    obtain ⟨_, _, _, e⟩ := softResetEffects_frame s
    exact grantRuns_of_no_grant (by rw [e]; simp)
  | fullResets => exact grantRuns_of_no_grant (by rw [fullReset_frame]; simp [State.reset])
  | clears lines h => exact grantRuns_cleared s lines
  -- acts on no grant and no duty's state
  | race a v => rw [raceWrite_frame]; exact hs
  | stores a o data h => rw [storeReceived_frame]; exact hs
  | disposes => rw [disposeHeads_frame]; exact hs
  | _ => exact hs

/-! ## The due queue, one duty apart -/

/-- The due queue is exact and in slack order as far as every duty but `n` is concerned, and `n` is not in it: the form
it has while the record of `n` moves. -/
structure State.QueueWithout (s : State) (n : Fin 32) : Prop where
  nodup : s.dueQueue.Nodup
  absent : n ∉ s.dueQueue
  others : ∀ k, k ≠ n → (k ∈ s.dueQueue ↔ (s.duty k).state = .due)
  ordered : s.dueQueueOrdered

/-- The due queue is exact (R30) and in slack order (R31). -/
def State.queueInOrder (s : State) : Prop := s.dueQueueExact ∧ s.dueQueueOrdered

/-- Slack order reads the slack of the entries only. -/
theorem dueQueueOrdered_congr {s t : State} (hs : s.dueQueueOrdered) (hq : t.dueQueue = s.dueQueue)
    (h : ∀ k ∈ s.dueQueue, (t.duty k).slack = (s.duty k).slack) : t.dueQueueOrdered := by
  unfold State.dueQueueOrdered State.slackOf at *
  rw [hq]
  exact hs.imp_of_mem fun ha hb hle => by rw [h _ ha, h _ hb]; exact hle

/-- The order and the exactness read the queue, the duties' states and the entries' slack. -/
theorem queueInOrder_congr {s t : State} (hs : s.queueInOrder) (hq : t.dueQueue = s.dueQueue)
    (h : ∀ k, ((t.duty k).state = .due ↔ (s.duty k).state = .due) ∧
      (k ∈ s.dueQueue → (t.duty k).slack = (s.duty k).slack)) : t.queueInOrder :=
  ⟨⟨by rw [hq]; exact hs.1.1, fun k => by rw [hq, hs.1.2 k, (h k).1]⟩,
    dueQueueOrdered_congr hs.2 hq fun k hk => (h k).2 hk⟩

/-- A queue of no entries is in order where no duty is DUE. -/
theorem queueInOrder_of_empty {s : State} (hq : s.dueQueue = []) (h : ∀ n, (s.duty n).state ≠ .due) : s.queueInOrder :=
  ⟨⟨by simp [hq], fun n => by simp [hq, h n]⟩, by simp [State.dueQueueOrdered, hq]⟩

theorem queueInOrder_cleared (s : State) (lines : Byte) : (s.cleared lines).queueInOrder :=
  queueInOrder_of_empty rfl (by decide : ∀ n, (State.reset.duty n).state ≠ .due)

/-- A record may change without a change of its DUE state, and of its slack while it is queued. -/
theorem queueInOrder_setDuty {s : State} {n : Fin 32} {d : DutyRec} (hs : s.queueInOrder)
    (hd : d.state = .due ↔ (s.duty n).state = .due) (hk : (s.duty n).state = .due → d.slack = (s.duty n).slack) :
    (s.setDuty n d).queueInOrder := by
  refine queueInOrder_congr hs rfl fun k => ?_
  rw [duty_setDuty]
  split
  · rename_i e
    subst e
    exact ⟨hd, fun hq => hk ((hs.1.2 k).mp hq)⟩
  · exact ⟨Iff.rfl, fun _ => rfl⟩

namespace State.QueueWithout

variable {s : State} {n : Fin 32} {d : DutyRec}

/-- The queue is without a duty that is not DUE. -/
theorem of_not_due (hs : s.queueInOrder) (h : (s.duty n).state ≠ .due) : s.QueueWithout n :=
  ⟨hs.1.1, fun hn => h ((hs.1.2 n).mp hn), fun k _ => hs.1.2 k, hs.2⟩

/-- A removed duty's entry is gone, and the entries behind it close up (R30). -/
theorem removeDue (hs : s.queueInOrder) (n : Fin 32) : (s.removeDue n).QueueWithout n where
  nodup := hs.1.1.filter _
  absent := by simp [State.removeDue]
  others k hk := by simp [State.removeDue, hk, hs.1.2 k, State.duty]
  ordered := hs.2.filter _

/-- The record of the duty apart may be any. -/
theorem setDuty (h : s.QueueWithout n) (d : DutyRec) : (s.setDuty n d).QueueWithout n where
  nodup := h.nodup
  absent := h.absent
  others k hk := by simpa [hk] using h.others k hk
  ordered := dueQueueOrdered_congr h.ordered rfl fun k hk => by
    have hn : k ≠ n := fun e => h.absent (e ▸ hk)
    rw [duty_setDuty, if_neg hn]

/-- A DUE duty takes its place by its slack (R31). -/
theorem insertDue (h : s.QueueWithout n) (hd : (s.duty n).state = .due) : (s.insertDue n).queueInOrder := by
  refine ⟨⟨?_, fun k => ?_⟩, placeBySlack_pairwise n h.ordered⟩
  · exact (placeBySlack_perm _ n _).nodup_iff.mpr (List.nodup_cons.mpr ⟨h.absent, h.nodup⟩)
  · refine (mem_placeBySlack ..).trans ?_
    by_cases hk : k = n
    · subst hk
      exact iff_of_true (.inl rfl) hd
    · simpa [hk] using h.others k hk

/-- A duty that is not DUE has no place in the queue. -/
theorem inOrder (h : s.QueueWithout n) (hd : (s.duty n).state ≠ .due) : s.queueInOrder :=
  ⟨⟨h.nodup, fun k => by
    by_cases hk : k = n
    · subst hk
      exact iff_of_false h.absent hd
    · exact h.others k hk⟩, h.ordered⟩

end State.QueueWithout

/-! ## The due queue under the operations on duties -/

section
variable {s : State} {n : Fin 32} {d : DutyRec}

/-- A duty outside the queue becomes DUE and is placed, or takes another state. -/
theorem queueInOrder_settleDuty (hs : s.queueInOrder) (h : (s.duty n).state ≠ .due) : (s.settleDuty n d).queueInOrder := by
  have apart := State.QueueWithout.of_not_due hs h
  rcases settleDuty_cases s n d with ⟨_, e⟩ | ⟨_, e⟩ <;> rw [e]
  · exact (apart.setDuty _).insertDue (by simp)
  · exact (apart.setDuty _).inOrder (by simp)

theorem slack_latened (d : DutyRec) : d.latened.slack = d.slack := rfl

/-- An expiry places a duty that falls DUE, and places a DUE duty anew at its lower slack (R11, R13, R32). -/
theorem queueInOrder_expireDuty (n : Fin 32) (hs : s.queueInOrder) : (s.expireDuty n).queueInOrder := by
  rw [expireDuty_eq]
  cases h : (s.duty n).state with
  | idle => exact hs
  | faulted => exact hs
  | armed =>
    simp only
    split
    · exact ((State.QueueWithout.of_not_due hs (by simp [h])).setDuty _).insertDue (by simp)
    · exact queueInOrder_setDuty hs (by simp) (by simp [h])
  | due =>
    simp only
    split
    · exact queueInOrder_setDuty hs (by simp) fun _ => slack_latened _
    · have apart := (State.QueueWithout.removeDue hs n).setDuty (s.duty n).lowered
      exact apart.insertDue (by simpa using h)
  | running =>
    simp only
    split
    · exact queueInOrder_setDuty hs (by simp) (by simp [h])
    · exact queueInOrder_setDuty hs (by simp) (by simp [h])

theorem queueInOrder_runFailed (cause : Condition) (position : Nat) (hs : s.queueInOrder) (h : (s.duty n).state ≠ .due) :
    (s.runFailed n cause position).queueInOrder := by
  by_cases hf : (s.duty n).faults cause = true
  · rw [runFailed_of_faults hf]
    exact queueInOrder_setDuty hs (by simp [h]) (by simp [h])
  · rw [runFailed_of_not hf]
    exact queueInOrder_settleDuty hs h

/-- Record protection takes a host write to a duty record only while its duty is out of service (R61). -/
theorem not_active_of_takesWrite {a : BitVec 13} {off : Nat} (ht : s.takesWrite a = true) (hp : placeOf a = .duty n off) :
    (s.duty n).active = false := by
  simp only [State.takesWrite, hp, State.configurable, Bool.and_eq_true, Bool.not_eq_true'] at ht
  exact ht.2

theorem queueInOrder_putHostByte {a : BitVec 13} (v : Byte) (hs : s.queueInOrder) (ht : s.takesWrite a = true) :
    (s.putHostByte a v).queueInOrder := by
  unfold State.putHostByte
  split
  · exact hs
  · exact hs
  · rename_i n off hp
    have state := state_setHostByte (s.duty n) off v
    refine queueInOrder_setDuty hs (by rw [state]) fun hd => ?_
    have idle := not_active_of_takesWrite ht hp
    simp [DutyRec.active, hd] at idle
  · exact hs

/-- A granted duty leaves the queue and is RUNNING (R37). -/
theorem queueInOrder_grantDuty (n : Fin 32) (hs : s.queueInOrder) : (s.grantDuty n).queueInOrder := by
  have apart := (State.QueueWithout.removeDue hs n).setDuty { s.duty n with state := .running }
  exact apart.inOrder (by simp)

end

/-- An act keeps the due queue in order where the part runs on and a granted duty runs. -/
theorem Act.queueInOrder {s t : State} (h : Act s t) (ht : t.phase = .running) (hr : s.grantRuns) (hs : s.queueInOrder) :
    t.queueInOrder := by
  have granted : ∀ {n p}, s.grant = some (.duty n p) → (s.duty n).state ≠ .due := fun hg => by
    rw [hr _ _ hg]
    simp
  cases h with
  | quiet e => rw [e]; exact hs
  | hostByte a v h => exact queueInOrder_putHostByte v hs h
  -- duties
  | dutyMarks n d h => exact queueInOrder_setDuty hs (by rw [h]) fun _ => by rw [h]; rfl
  | arms n ha hv =>
    have idle : (s.duty n).state ≠ .due := fun hd => by simp [DutyRec.active, hd] at ha
    exact queueInOrder_setDuty hs (by simp [DutyRec.arm, idle]) fun hd => absurd hd idle
  | disarms n h =>
    have apart : (s.duty n).state ≠ .due := by rcases h with h | h <;> simp [h]
    exact queueInOrder_setDuty hs (by simp [DutyRec.disarm, apart]) fun hd => absurd hd apart
  | disarmsDue n h =>
    exact ((State.QueueWithout.removeDue hs n).setDuty _).inOrder (by simp [DutyRec.disarm])
  | cuts n h =>
    have apart : (s.duty n).state ≠ .due := h.elim (fun h => by simp [h]) fun ⟨_, hg⟩ => granted hg
    exact queueInOrder_setDuty hs (by simp [DutyRec.cut, DutyRec.disarm, apart]) fun hd => absurd hd apart
  | expires n h => exact queueInOrder_expireDuty n hs
  | runSucceeds n p hg => exact queueInOrder_settleDuty hs (granted hg)
  | runFails n x p hg => exact queueInOrder_runFailed x p hs (granted hg)
  -- grants
  | takes k hf hr hc =>
    cases k with
    | duty n => exact queueInOrder_grantDuty n hs
    | channel c => rw [State.take, grantChannel_frame]; exact hs
    | host r => rw [State.take, grantHost_frame]; exact hs
  | unitEnds c x k hg => rw [unitEnd_frame]; exact hs
  -- resets
  | softResets h =>
    refine queueInOrder_of_empty ?_ fun n => by rw [duty_softResetEffects]; simp [DutyRec.softReset, DutyRec.zero]
    obtain ⟨_, _, _, e⟩ := softResetEffects_frame s
    rw [e]
  | fullResets =>
    rw [fullReset_frame] at ht
    exact absurd ht (by decide : State.reset.phase ≠ .running)
  | clears lines h => exact queueInOrder_cleared s lines
  -- acts on no duty
  | race a v => rw [raceWrite_frame]; exact hs
  | stores a o data h => rw [storeReceived_frame]; exact hs
  | disposes => rw [disposeHeads_frame]; exact hs
  | _ => exact hs

/-- What an act keeps where the part runs behind it, and the end of the clear brings, every step keeps in a running part. -/
theorem step_keeps_while_running {P : State → Prop} (hP : ∀ {s t}, Act s t → t.phase = .running → P s → P t)
    (hc : ∀ s lines, P (State.cleared s lines)) {s t : State} (h : step s = .next t) (hs : s.phase = .running → P s) :
    t.phase = .running → P t := by
  refine step_keeps (P := fun u => u.phase = .running → P u) (fun {u v} a hu hv => ?_) h hs
  rcases a.phase with e | e | ⟨lines, e⟩
  · exact hP a hv (hu (e ▸ hv))
  · exact absurd hv e
  · rw [e]
    exact hc u lines

/-- Settles O56: each act keeps the queue in order and a granted duty RUNNING. -/
theorem dueQueueStaysExactAndOrdered : Obligations.DueQueueStaysExactAndOrdered := fun _ _ hs h hr => by
  obtain ⟨order, runs⟩ := step_keeps_while_running (P := fun s => s.queueInOrder ∧ s.grantRuns)
    (fun a ht hs => ⟨a.queueInOrder ht hs.2 hs.1, a.grantRuns hs.2⟩)
    (fun s lines => ⟨queueInOrder_cleared s lines, grantRuns_cleared s lines⟩) h
    (fun hp => ⟨⟨(hs hp).1, (hs hp).2.1⟩, (hs hp).2.2⟩) hr
  exact ⟨order.1, order.2, runs⟩

end Sys2Proof.Machine
end

/-!
SUPPORT. The frame on the bus addresses an ONLINE target: every act keeps it (R131, R150).
-/

section
namespace Sys2Proof.Machine

open Sys2Proof

/-! ## The frame on the bus after each operation -/

theorem frameOnBus_of_engine {s t : State} (h : t.engine = s.engine) : t.frameOnBus = s.frameOnBus := by
  unfold State.frameOnBus
  rw [h]

/-- The race rewrites the bytes of an attempt and leaves its frame (R65). -/
theorem frameOnBus_raceWrite (s : State) (a : Nat) (v : Byte) : (s.raceWrite a v).frameOnBus = s.frameOnBus := by
  unfold State.raceWrite
  split
  · rename_i t he
    split
    · simp [State.frameOnBus, he]
    · rfl
  · rfl

theorem frameOnBus_grantChannel (s : State) (c : Fin 16) : (s.grantChannel c).frameOnBus = none := by
  rcases grantChannel_cases s c with ⟨_, e⟩ | ⟨_, e⟩ <;> rw [e]
  · rfl
  · exact frameOnBus_unitEnd ..

theorem frameOnBus_grantHost (s : State) (r : Request) : (s.grantHost r).frameOnBus = none := by
  rw [grantHost_frame]
  rfl

/-- The last parts of the soft-reset effects leave the bus engine. -/
theorem engine_softResetTail (u : State) :
    { u.softResetQuiet.softResetWindow with dueQueue := [], channelPointer := 15, hostWait := 0 }.engine = u.engine := by
  rw [softResetQuiet_frame]
  rfl

theorem engine_softResetRecords (s : State) : s.softResetRecords.engine = s.engine := by
  rw [softResetRecords_frame, softResetRequests_eq]

theorem frameOnBus_softResetBus {s : State} (h : s.frameOnBus = none) : s.softResetBus.frameOnBus = none := by
  unfold State.softResetBus
  split
  · rfl
  · rfl
  · exact h

/-- Soft-reset effects that find no frame on the bus put none there. -/
theorem frameOnBus_softResetEffects {s : State} (h : s.frameOnBus = none) : s.softResetEffects.frameOnBus = none := by
  have engine : s.softResetEffects.engine = s.softResetRecords.softResetBus.engine := by
    rw [softResetEffects_eq]
    exact engine_softResetTail _
  rw [frameOnBus_of_engine engine]
  exact frameOnBus_softResetBus ((frameOnBus_of_engine (engine_softResetRecords s)).trans h)

/-! ## The state of a target after each operation -/

theorem state_setHostByte_target (r : TargetRec) (off : Nat) (v : Byte) : (r.setHostByte off v).state = r.state := by
  unfold TargetRec.setHostByte
  split <;> rfl

/-- A host write reaches no target's state (R60). -/
theorem online_putHostByte (s : State) (a : BitVec 13) (v : Byte) (t : Fin 16) :
    (s.putHostByte a v).online t = s.online t := by
  unfold State.putHostByte
  split
  · rename_i k off _
    unfold State.online
    rw [target_setTarget]
    split
    · rename_i e
      rw [state_setHostByte_target, e]
    · rfl
  · rfl
  · rfl
  · rfl

/-! ## Frames go to ONLINE targets -/

theorem framesOnline_of_none {s : State} (h : s.frameOnBus = none) : s.framesOnline := fun f hf => by
  rw [h] at hf
  cases hf

/-- A frame that stays goes to a target that stays ONLINE. -/
theorem framesOnline_of_online {s t : State} (hs : s.framesOnline) (hf : t.frameOnBus = s.frameOnBus)
    (ho : ∀ f, s.frameOnBus = some f → s.online f.target = true → t.online f.target = true) : t.framesOnline :=
  fun f h => ho f (hf ▸ h) (hs f (hf ▸ h))

theorem framesOnline_setTarget {s : State} {k : Fin 16} {r : TargetRec} (hs : s.framesOnline)
    (hr : (s.target k).state = .online → s.frameTo k = true → r.state = .online) : (s.setTarget k r).framesOnline := by
  refine framesOnline_of_online hs rfl fun f hf ho => ?_
  unfold State.online at ho ⊢
  rw [target_setTarget]
  split
  · rename_i e
    have frame : s.frameTo k = true := by simp [State.frameTo, hf, e]
    simpa using hr (by simpa [e] using ho) frame
  · exact ho

theorem framesOnline_startFrame {s : State} {f : Frame} (h : s.online f.target = true) : (s.startFrame f).framesOnline :=
  fun g hg => by
    cases hg
    change s.online (s.frameFor f).target = true
    rw [target_frameFor]
    exact h

/-- Every act leaves on the bus a frame to an ONLINE target, or none. -/
theorem Act.framesOnline {s t : State} (h : Act s t) (hs : s.framesOnline) : t.framesOnline := by
  cases h with
  | quiet e => rw [e]; exact hs
  -- targets
  | hostByte a v h =>
    refine framesOnline_of_online hs (frameOnBus_of_engine (by rw [putHostByte_frame])) fun f _ ho => ?_
    rw [online_putHostByte]
    exact ho
  | targetMarks k r h => exact framesOnline_setTarget hs fun ho _ => by rw [h]; exact ho
  | comesOnline k ho hv => exact framesOnline_setTarget hs fun _ _ => rfl
  | goesOffline k h =>
    refine framesOnline_setTarget hs fun ho hf => ?_
    rcases h with h | h
    · simp [State.online, ho] at h
    · simp [hf] at h
  -- frames that start, or stay
  | startsTransaction n p hg ho => exact framesOnline_startFrame ho
  | startsUnitFrame c k hg ho => exact framesOnline_startFrame (by cases k <;> exact ho)
  | startsRequestFrame r hg hi ho => exact framesOnline_startFrame ho
  | waitsToRetry a h => exact framesOnline_of_online hs (by simp [State.frameOnBus, h]) fun _ _ ho => ho
  | retries a h => exact framesOnline_of_online hs (by simp [State.frameOnBus, h, State.newAttempt]) fun _ _ ho => ho
  | race a v =>
    refine framesOnline_of_online hs (frameOnBus_raceWrite s a v) fun _ _ ho => ?_
    rw [raceWrite_frame]
    exact ho
  -- no frame is left
  | counts a o h => exact framesOnline_of_none rfl
  | cuts n h => exact framesOnline_of_none rfl
  | runSucceeds n p hg => exact framesOnline_of_none (frameOnBus_of_gap (.inl (by rw [runSucceeded_frame])))
  | runFails n x p hg => exact framesOnline_of_none (frameOnBus_runFailed ..)
  | unitEnds c x k hg => exact framesOnline_of_none (frameOnBus_unitEnd ..)
  | requestEnds r c hg hi => exact framesOnline_of_none rfl
  | grantEnds => exact framesOnline_of_none rfl
  | nextPosition n p j k hg he hl => exact framesOnline_of_none rfl
  | broadcasts b h => exact framesOnline_of_none rfl
  | idles e h he => exact framesOnline_of_none (by rcases he with rfl | rfl <;> rfl)
  | takes k hf hr hc =>
    cases k with
    | duty n => exact framesOnline_of_none rfl
    | channel c => exact framesOnline_of_none (frameOnBus_grantChannel s c)
    | host r => exact framesOnline_of_none (frameOnBus_grantHost s r)
  | softResets h => exact framesOnline_of_none (frameOnBus_softResetEffects h)
  | fullResets => exact framesOnline_of_none (by rw [fullReset_frame]; rfl)
  | clears lines h => exact framesOnline_of_none rfl
  -- acts on no frame and no target
  | stores a o data h => rw [storeReceived_frame]; exact hs
  | expires n h => rw [expireDuty_frame]; exact hs
  | disposes => rw [disposeHeads_frame]; exact hs
  | _ => exact hs

end Sys2Proof.Machine
end

/-!
SUPPORT. What is in use stays valid: the bytes that a duty's list and a channel's descriptor are read from, and each act
on what its command validated (R36, R43, R66, R77, R89, R104, R151, R155).
-/

section
namespace Sys2Proof.Machine

open Sys2Proof

/-! ## Lists and descriptors in memory -/

/-- A transaction record passes by its bytes 0 and 2 alone. -/
theorem transactionValid_congr {s t : State} {i : Nat}
    (h : ∀ k, k < 4 → t.memByte (transactionAddress i + k) = s.memByte (transactionAddress i + k)) :
    t.transactionValid i = s.transactionValid i := by
  have h0 := h 0 (by omega)
  have h2 := h 2 (by omega)
  simp only [Nat.add_zero] at h0
  have kind : t.transactionKind i = s.transactionKind i := by unfold State.transactionKind; rw [h0]
  have length : t.transactionLength i = s.transactionLength i := congrArg BitVec.toNat h2
  simp only [State.transactionValid, State.compareEnable, kind, length, h0]

/-- A descriptor is read from the 16 bytes of its slot. -/
theorem descriptor_congr {s t : State} {j : Nat}
    (h : ∀ k, k < 16 → t.memByte (slotAddress j + k) = s.memByte (slotAddress j + k)) :
    t.descriptor j = s.descriptor j := by
  have h0 := h 0 (by omega)
  simp only [Nat.add_zero] at h0
  simp [State.descriptor, State.memHalf, h0, h 1, h 2, h 3, h 4, h 5, h 6, h 7, h 8, h 9, h 10, h 11, h 12, h 13, Nat.add_assoc]

theorem lists_iff (d : DutyRec) (i : Nat) :
    d.lists i = true ↔ d.listFirst.toNat ≤ i ∧ i < d.listFirst.toNat + d.listLength.toNat := by
  simp [DutyRec.lists]

/-- The host fields of a duty record are what a soft reset keeps of it (R29); its validity reads these, and the records
of its list (R24). -/
theorem dutyValid_congr {s t : State} {n : Fin 32} (hd : (t.duty n).softReset = (s.duty n).softReset)
    (hl : ∀ i, (s.duty n).lists i = true → t.transactionValid i = s.transactionValid i) :
    t.dutyValid n = s.dutyValid n := by
  have target : (t.duty n).target = (s.duty n).target := (congrArg DutyRec.target hd :)
  have postpone : (t.duty n).postponeLimit = (s.duty n).postponeLimit := (congrArg DutyRec.postponeLimit hd :)
  have interval : (t.duty n).interval = (s.duty n).interval := (congrArg DutyRec.interval hd :)
  have phase : (t.duty n).phase = (s.duty n).phase := (congrArg DutyRec.phase hd :)
  have pullin : (t.duty n).pullinLimit = (s.duty n).pullinLimit := (congrArg DutyRec.pullinLimit hd :)
  have first : (t.duty n).listFirst = (s.duty n).listFirst := (congrArg DutyRec.listFirst hd :)
  have length : (t.duty n).listLength = (s.duty n).listLength := (congrArg DutyRec.listLength hd :)
  have fault : (t.duty n).faultThreshold = (s.duty n).faultThreshold := (congrArg DutyRec.faultThreshold hd :)
  have policy : (t.duty n).quietPolicy = (s.duty n).quietPolicy := (congrArg DutyRec.quietPolicy hd :)
  have list : (List.range (s.duty n).listLength.toNat).all (fun k => t.transactionValid ((s.duty n).listFirst.toNat + k)) =
      (List.range (s.duty n).listLength.toNat).all (fun k => s.transactionValid ((s.duty n).listFirst.toNat + k)) := by
    rw [Bool.eq_iff_iff, List.all_eq_true, List.all_eq_true]
    refine forall₂_congr fun k hk => by rw [hl]; rw [lists_iff]; have := List.mem_range.mp hk; omega
  simp only [State.dutyValid, DutyRec.holds, DutyRec.wakes, target, postpone, interval, phase, pullin, first, length, fault,
    policy, list]

/-- What the check of a duty record says of its list: 1 to 8 records within the 128, each valid (R24). -/
theorem list_of_dutyValid {s : State} {n : Fin 32} (h : s.dutyValid n = true) :
    1 ≤ (s.duty n).listLength.toNat ∧ (s.duty n).listFirst.toNat + (s.duty n).listLength.toNat ≤ 128 ∧
      ∀ i, (s.duty n).lists i = true → s.transactionValid i = true := by
  simp only [State.dutyValid, Bool.and_eq_true, decide_eq_true_eq, List.all_eq_true, List.mem_range] at h
  obtain ⟨⟨⟨⟨⟨⟨⟨-, length⟩, -⟩, within⟩, -⟩, -⟩, -⟩, valid⟩ := h
  refine ⟨length, within, fun i hi => ?_⟩
  rw [lists_iff] at hi
  have := valid (i - (s.duty n).listFirst.toNat) (by omega)
  rwa [Nat.add_sub_cancel' hi.1] at this

/-- A valid transaction moves at most 4 bytes (R24). -/
theorem transactionLength_le {s : State} {i : Nat} (h : s.transactionValid i = true) : s.transactionLength i ≤ 4 := by
  simp only [State.transactionValid, Bool.and_eq_true, decide_eq_true_eq] at h
  exact h.1.2

/-! ## Where an address lies (R56) -/

theorem slotAddress_eq (j : Nat) : slotAddress j = 0x600 + 16 * j := rfl

theorem transactionAddress_eq (i : Nat) : transactionAddress i = 0x900 + 8 * i := rfl

theorem transactionData_eq (i : Nat) : transactionData i = 0x904 + 8 * i := by
  rw [transactionData, transactionAddress_eq]
  omega

theorem placeOf_descriptor {a : BitVec 13} {slot off : Nat} (h : placeOf a = .descriptor slot off) :
    a.toNat = slotAddress slot + off ∧ off < 16 ∧ slot ≤ 47 := by
  unfold placeOf at h
  simp only at h
  split_ifs at h
  cases h
  rw [slotAddress_eq]
  omega

theorem placeOf_transaction {a : BitVec 13} {i off : Nat} (h : placeOf a = .transaction i off) :
    a.toNat = transactionAddress i + off ∧ off < 8 ∧ i < 128 := by
  unfold placeOf at h
  simp only at h
  split_ifs at h
  cases h
  rw [transactionAddress_eq]
  omega

theorem placeOf_data {a : BitVec 13} (h : placeOf a = .data) : Config.dataBase ≤ a.toNat := by
  unfold placeOf at h
  simp only at h
  split_ifs at h
  unfold Config.dataBase
  omega

end Sys2Proof.Machine
end

section
namespace Sys2Proof.Machine

open Sys2Proof

/-! ## Work in use -/

/-- The bytes and the LENGTH of a request, as SUBMIT checked them (R104). -/
def Request.inRange (r : Request) : Prop :=
  (1 ≤ r.length ∧ r.length ≤ 16) ∧ Config.dataBase ≤ r.address ∧ r.address + r.length ≤ Config.tableSize

/-- The slot a channel record follows exists and holds a valid descriptor (R77). -/
def State.follows (s : State) (r : ChannelRec) : Prop :=
  r.currentSlot.toNat ≤ 47 ∧ (s.descriptor r.currentSlot.toNat).valid = true

/-- What is in use is what its command validated: `State.workKept` of a running part, its parts by name. -/
structure State.WorkSound (s : State) : Prop where
  memory : memWf s.mem = true
  targets : ∀ t, (s.target t).state ≠ .offline → (s.target t).valid = true
  requests : ∀ r, r ∈ s.requests ∨ s.inFlight = some r → r.inRange
  duties : ∀ n, (s.duty n).active = true → s.dutyValid n = true
  channels : ∀ c, (s.channel c).active = true → s.follows (s.channel c)
  position : ∀ n p, s.grant = some (.duty n p) → 1 ≤ p ∧ p ≤ (s.duty n).listLength.toNat
  unit : ∀ c k, s.grant = some (.channel c k) → (s.channel c).state = .busy ∧ s.unitInRange c = true
  frame : ∀ f, s.frameOnBus = some f → f.inRange

theorem workKept_iff (s : State) : s.workKept ↔ (s.phase = .running → s.WorkSound) :=
  imp_congr_right fun _ =>
    ⟨fun ⟨memory, targets, requests, duties, channels, position, unit, frame⟩ =>
      ⟨memory, targets, requests, duties, channels, position, unit, frame⟩,
    fun h => ⟨h.memory, h.targets, h.requests, h.duties, h.channels, h.position, h.unit, h.frame⟩⟩

/-! ## The state of a channel (R76) -/

theorem channelActive_iff (r : ChannelRec) : r.active = true ↔ r.state = .waiting ∨ r.state = .busy := by
  simp [ChannelRec.active]

theorem waiting_of_hasTrigger {s : State} {c : Fin 16} (h : s.hasTrigger c = true) : (s.channel c).state = .waiting := by
  simp only [State.hasTrigger, Bool.and_eq_true, beq_iff_eq] at h
  exact h.1

/-- An arrival leaves the place in the descriptor; it counts, or halts a WAITING channel (R81 to R83). -/
theorem arrive_cases (r : ChannelRec) :
    r.arrive.currentSlot = r.currentSlot ∧ r.arrive.currentAddress = r.currentAddress ∧
      (r.arrive.state = r.state ∨ r.state = .waiting ∧ r.arrive.state = .halted) := by
  unfold ChannelRec.arrive
  split
  · exact ⟨rfl, rfl, .inl rfl⟩
  · exact ⟨rfl, rfl, .inl rfl⟩
  · split
    · exact ⟨rfl, rfl, .inr ⟨‹_›, rfl⟩⟩
    · exact ⟨rfl, rfl, .inl rfl⟩

/-! ## The end of a unit (R88, R93) -/

/-- A unit without a recorded cause, or whose record follows a valid descriptor, leaves a channel that, where it is
active, follows a valid descriptor. -/
theorem follows_unitNext {s : State} {r : ChannelRec} (stops : Bool) (h : r.haltCause = .none → s.follows r)
    (ha : (r.unitNext stops).active = true) : s.follows (r.unitNext stops) := by
  unfold ChannelRec.unitNext at ha ⊢
  split_ifs at ha ⊢ with hp hc
  · simp [ChannelRec.active] at ha
  · simp [ChannelRec.active, ChannelRec.halt] at ha
  · simp [ChannelRec.active] at ha
  · exact h (by simpa using hc)

theorem haltCause_recordCause {r : ChannelRec} {cause : Condition} (h : cause ≠ .none) :
    (r.recordCause cause).haltCause ≠ .none := by
  unfold ChannelRec.recordCause
  split_ifs with hr
  · exact h
  · exact hr

/-- A load follows the valid descriptor it read; without one BAD_DESCRIPTOR is recorded (R93). -/
theorem follows_chainTo {s : State} {r : ChannelRec} {d : Descriptor} {slot : Byte} (hs : slot.toNat ≤ 47)
    (h : (s.chainTo r d slot).haltCause = .none) : s.follows (s.chainTo r d slot) := by
  unfold State.chainTo at h ⊢
  split_ifs at h ⊢ with hv
  · exact ⟨hs, hv⟩
  · exact absurd h (haltCause_recordCause (by simp))

theorem nextSlot_le_of_valid {d : Descriptor} (hv : d.valid = true) (h : d.endAction = 1) : d.nextSlot.toNat ≤ 47 := by
  simp [Descriptor.valid, h] at hv
  omega

theorem follows_endAction {s : State} {r : ChannelRec} {d : Descriptor} (hr : s.follows r) (hd : d.valid = true)
    (h : (s.endAction r d).haltCause = .none) : s.follows (s.endAction r d) := by
  unfold State.endAction at h ⊢
  split_ifs at h ⊢ with h1 h2
  · exact follows_chainTo (nextSlot_le_of_valid hd h1) h
  · exact follows_chainTo hr.1 h
  · exact hr

theorem follows_unitSuccess {s : State} {c : Fin 16} (hr : s.follows (s.channel c))
    (h : (s.unitSuccess c).haltCause = .none) : s.follows (s.unitSuccess c) := by
  unfold State.unitSuccess at h ⊢
  simp only at h ⊢
  have counted : s.follows ((s.channel c).countUnit (s.currentDescriptor c)) := hr
  split_ifs at h ⊢ with h0
  · exact follows_endAction counted hr.2 h
  · exact counted

/-- At the end of a unit a channel goes on only in a valid descriptor (R77, R93). -/
theorem follows_unitRecord {s : State} {c : Fin 16} (failure : Condition) (hr : s.follows (s.channel c))
    (ha : (s.unitRecord c failure).active = true) : s.follows (s.unitRecord c failure) := by
  unfold State.unitRecord at ha ⊢
  split_ifs at ha ⊢ with hf
  · exact follows_unitNext _ (follows_unitSuccess hr) ha
  · exact follows_unitNext _ (fun h => absurd h (haltCause_recordCause hf)) ha

/-- The end of a unit does not read the grant, which it ends. -/
theorem unitEnd_grant (s : State) (g : Option Grant) (c : Fin 16) (failure : Condition) :
    { s with grant := g }.unitEnd c failure = s.unitEnd c failure := by
  have hc : { s with grant := g }.channel c = s.channel c := rfl
  unfold State.unitEnd
  simp only [hc]
  split <;> rfl

theorem unitInRange_congr {s t : State} {c : Fin 16} (ha : (t.channel c).currentAddress = (s.channel c).currentAddress)
    (hd : t.currentDescriptor c = s.currentDescriptor c) : t.unitInRange c = s.unitInRange c := by
  unfold State.unitInRange
  rw [ha, hd]

/-! ## Targets and requests -/

theorem valid_outcome (r : TargetRec) (k : FrameKind) (o : FrameOutcome) : (r.outcome k o).valid = r.valid := by
  have count : (r.count o).valid = r.valid := by unfold TargetRec.count; split <;> rfl
  have sequence : ∀ q : TargetRec, (q.sequence k o).valid = q.valid := fun q => by
    unfold TargetRec.sequence
    split <;> (try split) <;> rfl
  have quarantine : ∀ q : TargetRec, (q.quarantine o).valid = q.valid := fun q => by
    unfold TargetRec.quarantine
    split <;> rfl
  rw [TargetRec.outcome, quarantine, sequence, count]

/-- A request is accepted with its LENGTH and its bytes in range (R104). -/
theorem inRange_stagedRequest {s : State} (h : s.stagingValid = true) : s.stagedRequest.inRange := by
  simp only [State.stagingValid, Bool.and_eq_true, decide_eq_true_eq] at h
  obtain ⟨⟨⟨⟨⟨-, -⟩, low⟩, high⟩, base⟩, top⟩ := h
  exact ⟨⟨low, high⟩, base, top⟩

/-! ## Frames -/

/-- A SYNC moves no bytes, so the frame that goes out for one in range is in range (R145). -/
theorem inRange_frameFor {s : State} {f : Frame} (h : f.inRange) : (s.frameFor f).inRange := by
  unfold State.frameFor
  split
  · trivial
  · exact h

namespace State.WorkSound

variable {s : State}

/-! ## Updates of one field -/

/-- Work reads memory, the records, the requests, the grant and the frame on the bus. -/
theorem of_eq {t : State} (h : s.WorkSound) (hm : t.mem = s.mem) (ht : t.targets = s.targets)
    (hr : t.requests = s.requests) (hi : t.inFlight = s.inFlight) (hd : t.duties = s.duties)
    (hc : t.channels = s.channels) (hg : t.grant = s.grant) (hf : t.frameOnBus = s.frameOnBus) : t.WorkSound := by
  have e : t = { t with
    mem := s.mem, targets := s.targets, requests := s.requests, inFlight := s.inFlight, duties := s.duties
    channels := s.channels, grant := s.grant } := by rw [← hm, ← ht, ← hr, ← hi, ← hd, ← hc, ← hg]
  refine ⟨hm ▸ h.memory, ?_, by rw [hr, hi]; exact h.requests, ?_, ?_, ?_, ?_, by rw [hf]; exact h.frame⟩ <;> rw [e]
  · exact h.targets
  · exact h.duties
  · exact h.channels
  · exact h.position
  · exact h.unit

/-- Without a grant and without a frame on the bus the rest of the work stands. -/
theorem endGrant (h : s.WorkSound) : s.endGrant.WorkSound :=
  ⟨h.memory, h.targets, h.requests, h.duties, h.channels, fun n p hg => (by cases hg), fun c k hg => (by cases hg),
    fun f hf => (by cases hf)⟩

theorem setEngine (h : s.WorkSound) (e : BusEngine) (hf : ∀ f, { s with engine := e }.frameOnBus = some f → f.inRange) :
    { s with engine := e }.WorkSound :=
  ⟨h.memory, h.targets, h.requests, h.duties, h.channels, h.position, h.unit, hf⟩

/-- A grant names a list position within its duty's list, or a BUSY channel with its unit in range. -/
theorem setGrant (h : s.WorkSound) {g : Option Grant}
    (hp : ∀ n p, g = some (.duty n p) → 1 ≤ p ∧ p ≤ (s.duty n).listLength.toNat)
    (hu : ∀ c k, g = some (.channel c k) → (s.channel c).state = .busy ∧ s.unitInRange c = true) :
    { s with grant := g }.WorkSound :=
  ⟨h.memory, h.targets, h.requests, h.duties, h.channels, hp, hu, h.frame⟩

theorem startFrame (h : s.WorkSound) {f : Frame} (hf : f.inRange) : (s.startFrame f).WorkSound :=
  ⟨h.memory, h.targets, h.requests, h.duties, h.channels, h.position, h.unit, fun g hg => by
    cases hg
    exact inRange_frameFor hf⟩

/-- A target that is not OFFLINE may take a record that passes R155. -/
theorem setTarget (h : s.WorkSound) {k : Fin 16} {r : TargetRec} (hr : r.state ≠ .offline → r.valid = true) :
    (s.setTarget k r).WorkSound :=
  ⟨h.memory, fun t => by
    rw [target_setTarget]
    split
    · exact hr
    · exact h.targets t, h.requests, h.duties, h.channels, h.position, h.unit, h.frame⟩

theorem setRequests (h : s.WorkSound) {q : List Request} {i : Option Request} {w : Nat} {cs : List Completion}
    (hq : ∀ r, r ∈ q ∨ i = some r → r.inRange) :
    { s with requests := q, inFlight := i, hostWait := w, completions := cs }.WorkSound :=
  ⟨h.memory, h.targets, hq, h.duties, h.channels, h.position, h.unit, h.frame⟩

/-- A duty's record may change its hardware fields, and be in service where it is valid. -/
theorem setDuty (h : s.WorkSound) {n : Fin 32} {d : DutyRec} (hd : d.softReset = (s.duty n).softReset)
    (hv : d.active = true → s.dutyValid n = true) : (s.setDuty n d).WorkSound := by
  have host : ∀ k, ((s.setDuty n d).duty k).softReset = (s.duty k).softReset := fun k => by
    rw [duty_setDuty]
    split
    · rw [hd, ‹k = n›]
    · rfl
  refine ⟨h.memory, h.targets, h.requests, fun k hk => ?_, h.channels, fun k p hg => ?_, h.unit, h.frame⟩
  · rw [dutyValid_congr (host k) fun _ _ => rfl]
    rw [duty_setDuty] at hk
    split at hk
    · rename_i e
      exact e ▸ hv hk
    · exact h.duties k hk
  · have length : ((s.setDuty n d).duty k).listLength = (s.duty k).listLength := (congrArg DutyRec.listLength (host k) :)
    rw [length]
    exact h.position k p hg

theorem setDueQueue (h : s.WorkSound) (q : List (Fin 32)) : { s with dueQueue := q }.WorkSound :=
  ⟨h.memory, h.targets, h.requests, h.duties, h.channels, h.position, h.unit, h.frame⟩

/-- A channel's record may follow a valid descriptor; while its unit is granted it keeps its place and stays BUSY. -/
theorem setChannel (h : s.WorkSound) {c : Fin 16} {r : ChannelRec} (hv : r.active = true → s.follows r)
    (hg : ∀ k, s.grant = some (.channel c k) → r.state = .busy ∧ r.currentSlot = (s.channel c).currentSlot ∧
      r.currentAddress = (s.channel c).currentAddress) : (s.setChannel c r).WorkSound := by
  refine ⟨h.memory, h.targets, h.requests, h.duties, fun e he => ?_, h.position, fun e k hk => ?_, h.frame⟩
  · rw [channel_setChannel] at he ⊢
    split at he
    · rw [if_pos ‹e = c›]
      exact hv he
    · rw [if_neg ‹¬e = c›]
      exact h.channels e he
  · obtain ⟨busy, range⟩ := h.unit e k hk
    by_cases hc : e = c
    · subst hc
      obtain ⟨state, slot, address⟩ := hg k hk
      refine ⟨by simpa using state, ?_⟩
      rw [unitInRange_congr (s := s) (by simpa using address) (by simp [State.currentDescriptor, slot])]
      exact range
    · refine ⟨by simpa [hc] using busy, ?_⟩
      rw [unitInRange_congr (s := s) (by simp [hc]) (by simp [State.currentDescriptor, hc])]
      exact range

/-- Bytes written within 0x0600 ... 0x1FFF, outside the lists and the descriptors in use, leave the work. -/
theorem writeMem (h : s.WorkSound) {a : Nat} {bs : List Byte} (hlo : Config.descriptorBase ≤ a)
    (hhi : a + bs.length ≤ Config.tableSize)
    (hd : ∀ n i, (s.duty n).active = true → (s.duty n).lists i = true →
      a + bs.length ≤ transactionAddress i ∨ transactionAddress i + 4 ≤ a)
    (hc : ∀ c, (s.channel c).active = true →
      a + bs.length ≤ slotAddress (s.channel c).currentSlot.toNat ∨
        slotAddress (s.channel c).currentSlot.toNat + 16 ≤ a) : (s.writeMem a bs).WorkSound := by
  have slot : ∀ c, (s.channel c).active = true → (s.writeMem a bs).descriptor (s.channel c).currentSlot.toNat =
      s.descriptor (s.channel c).currentSlot.toNat := fun c ha =>
    descriptor_congr fun k hk => memByte_writeMem_outside s bs (by have := hc c ha; omega)
  refine ⟨memWf_memWriteList bs h.memory hlo hhi, h.targets, h.requests, fun n ha => ?_, fun c ha => ?_, h.position,
    fun c k hg => ?_, h.frame⟩
  · have list : ∀ i, (s.duty n).lists i = true → (s.writeMem a bs).transactionValid i = s.transactionValid i :=
      fun i hi => transactionValid_congr fun k hk => memByte_writeMem_outside s bs (by have := hd n i ha hi; omega)
    exact (dutyValid_congr (s := s) (t := s.writeMem a bs) rfl list).trans (h.duties n ha)
  · obtain ⟨le, valid⟩ := h.channels c ha
    exact ⟨le, (congrArg Descriptor.valid (slot c ha)).trans valid⟩
  · obtain ⟨busy, range⟩ := h.unit c k hg
    have active : (s.channel c).active = true := (channelActive_iff _).mpr (.inr busy)
    exact ⟨busy, (unitInRange_congr (s := s) (t := s.writeMem a bs) rfl (slot c active)).trans range⟩

end State.WorkSound

end Sys2Proof.Machine
end

section
namespace Sys2Proof.Machine

open Sys2Proof

theorem target_softResetEffects (s : State) (k : Fin 16) : s.softResetEffects.target k = (s.target k).clearNotices := by
  have h : s.softResetRecords.target k = (s.target k).clearNotices := by
    simp only [State.softResetRecords, target_mapTargets]
    unfold State.target
    rw [mapChannels_frame, mapDuties_frame, softResetRequests_eq]
  rw [← h]
  obtain ⟨_, _, _, e⟩ := softResetEffects_frame s
  unfold State.target
  rw [e]

namespace State.WorkSound

variable {s : State}

/-! ## Duties -/

/-- A duty out of service may take any record that is out of service. -/
theorem setDuty_of_idle (h : s.WorkSound) (hr : s.grantRuns) {n : Fin 32} {d : DutyRec} (ha : (s.duty n).active = false)
    (hd : d.active = false) : (s.setDuty n d).WorkSound := by
  refine ⟨h.memory, h.targets, h.requests, fun k hk => ?_, h.channels, fun k p hg => ?_, h.unit, h.frame⟩
  · rw [duty_setDuty] at hk
    split at hk
    · rw [hd] at hk
      cases hk
    · rename_i hn
      have host : ((s.setDuty n d).duty k).softReset = (s.duty k).softReset := by rw [duty_setDuty, if_neg hn]
      exact (dutyValid_congr host fun _ _ => rfl).trans (h.duties k hk)
  · have hn : k ≠ n := fun e => by
      have := (active_iff _).mpr (.inr (.inr (hr k p hg)))
      rw [e, ha] at this
      cases this
    rw [duty_setDuty, if_neg hn]
    exact h.position k p hg

theorem settleDuty (h : s.WorkSound) {n : Fin 32} {d : DutyRec} (hd : d.softReset = (s.duty n).softReset)
    (hv : s.dutyValid n = true) : (s.settleDuty n d).WorkSound := by
  rcases settleDuty_cases s n d with ⟨_, e⟩ | ⟨_, e⟩ <;> rw [e]
  · exact (h.setDuty (d := { d with state := .due }) hd fun _ => hv).setDueQueue _
  · exact h.setDuty (d := { d with state := .armed }) hd fun _ => hv

theorem expireDuty (h : s.WorkSound) {n : Fin 32} (ha : (s.duty n).active = true) : (s.expireDuty n).WorkSound := by
  have valid : ∀ d : DutyRec, d.active = true → s.dutyValid n = true := fun _ _ => h.duties n ha
  have late := h.setDuty (d := (s.duty n).latened) rfl (valid _)
  have lowered := h.setDuty (d := (s.duty n).lowered) rfl (valid _)
  rw [expireDuty_eq]
  cases (s.duty n).state with
  | idle => exact h
  | faulted => exact h
  | armed =>
    simp only
    split
    · exact (h.setDuty (d := { (s.duty n).lowered with state := .due }) rfl (valid _)).setDueQueue _
    · exact lowered
  | due =>
    simp only
    split
    · exact late
    · exact (lowered.setDueQueue _).setDueQueue _
  | running =>
    simp only
    split
    · exact late
    · exact lowered

theorem runFailed (h : s.WorkSound) {n : Fin 32} (cause : Condition) (position : Nat) (hv : s.dutyValid n = true) :
    (s.runFailed n cause position).WorkSound := by
  by_cases hf : (s.duty n).faults cause = true
  · rw [runFailed_of_faults hf]
    exact (h.setDuty (by rfl) fun _ => hv).endGrant
  · rw [runFailed_of_not hf]
    exact (h.settleDuty (by rfl) hv).endGrant

/-- A duty in service is granted at list position 1 (R37). -/
theorem grantDuty (h : s.WorkSound) {n : Fin 32} (hv : s.dutyValid n = true) : (s.grantDuty n).WorkSound := by
  have running := (h.setDuty (d := { s.duty n with state := .running }) (by rfl) fun _ => hv).setDueQueue
    (s.removeDue n).dueQueue
  refine (running.setGrant (g := some (.duty n 1)) (fun m p hg => ?_) (fun c k hg => by cases hg)).setEngine .granted
    fun f hf => by cases hf
  cases hg
  have length : ((s.setDuty n { s.duty n with state := .running }).duty n).listLength = (s.duty n).listLength := by simp
  exact ⟨le_refl 1, (congrArg BitVec.toNat length) ▸ (list_of_dutyValid hv).1⟩

/-! ## Channels -/

/-- A channel's record that keeps the state and the place. -/
theorem setChannel_same (h : s.WorkSound) {c : Fin 16} {r : ChannelRec} (hs : r.state = (s.channel c).state)
    (hp : r.currentSlot = (s.channel c).currentSlot) (ha : r.currentAddress = (s.channel c).currentAddress) :
    (s.setChannel c r).WorkSound := by
  refine h.setChannel (fun h' => ?_) fun k hk => ⟨hs.trans (h.unit c k hk).1, hp, ha⟩
  unfold State.follows
  rw [hp]
  refine h.channels c ?_
  unfold ChannelRec.active at h' ⊢
  rwa [← hs]

/-- A channel that is not BUSY holds no grant, so its record need only follow a valid descriptor. -/
theorem setChannel_of_ne_busy (h : s.WorkSound) {c : Fin 16} {r : ChannelRec} (hb : (s.channel c).state ≠ .busy)
    (hv : r.active = true → s.follows r) : (s.setChannel c r).WorkSound :=
  h.setChannel hv fun k hk => absurd (h.unit c k hk).1 hb

theorem arriveAt (h : s.WorkSound) (c : Fin 16) : (s.arriveAt c).WorkSound := by
  obtain ⟨slot, address, state | ⟨waiting, halted⟩⟩ := arrive_cases (s.channel c)
  · exact h.setChannel_same state slot address
  · exact h.setChannel_of_ne_busy (by simp [waiting]) (by simp [ChannelRec.active, halted])

theorem unitEnd (h : s.WorkSound) {c : Fin 16} (failure : Condition) (ha : (s.channel c).active = true) :
    (s.unitEnd c failure).WorkSound := by
  have ended := h.endGrant.setChannel (c := c) (r := s.unitRecord c failure)
    (fun hr => follows_unitRecord failure (h.channels c ha) hr) fun k hk => by cases hk
  rcases unitEnd_cases s c failure with ⟨_, e⟩ | ⟨_, e⟩ <;> rw [e]
  · exact ended
  · exact ended.of_eq rfl rfl rfl rfl rfl rfl rfl rfl

/-- A WAITING channel is granted BUSY with its unit in range, or its unit ends at once (R89). -/
theorem grantChannel (h : s.WorkSound) {c : Fin 16} (hw : (s.channel c).state = .waiting) :
    (s.grantChannel c).WorkSound := by
  have follows := h.channels c ((channelActive_iff _).mpr (.inl hw))
  have busy : { s.setChannel c { s.channel c with state := .busy } with
      channelPointer := c, hostWait := if s.requests.isEmpty then s.hostWait else s.hostWait + 1 }.WorkSound :=
    (h.setChannel_of_ne_busy (r := { s.channel c with state := .busy }) (by simp [hw]) fun _ => follows).of_eq
      rfl rfl rfl rfl rfl rfl rfl rfl
  have state : ((s.setChannel c { s.channel c with state := .busy }).channel c).state = .busy := by simp
  rcases grantChannel_cases s c with ⟨range, e⟩ | ⟨_, e⟩ <;> rw [e]
  · refine (busy.setGrant (g := some (.channel c false)) (fun n p hg => by cases hg) (fun e k hg => ?_)).setEngine .granted
      fun f hf => by cases hf
    cases hg
    exact ⟨state, range⟩
  · have ended := busy.unitEnd (c := c) .memoryRange ((channelActive_iff _).mpr (.inr state))
    rw [← unitEnd_grant _ (some (.channel c false))] at ended
    exact ended

/-! ## Requests -/

theorem disposeHeads (h : s.WorkSound) : s.disposeHeads.WorkSound := by
  rcases disposeHeads_cases s with ⟨_, e⟩ | e <;> rw [e]
  · exact h
  · refine h.setRequests fun r hr => h.requests r (hr.imp_left fun hm => ?_)
    rw [← disposed_append_remaining]
    exact List.mem_append_right _ hm

theorem grantHost (h : s.WorkSound) {r : Request} (hr : r ∈ s.requests) : (s.grantHost r).WorkSound := by
  have taken : { s with requests := s.requests.tail, inFlight := some r, hostWait := 0 }.WorkSound :=
    h.setRequests fun q hq => h.requests q (.inl (hq.elim List.mem_of_mem_tail fun e => by cases e; exact hr))
  have granted : ∀ {u : State}, u.WorkSound → { u with grant := some .host, engine := .granted }.WorkSound := fun hu =>
    (hu.setGrant (g := some .host) (fun n p hg => by cases hg) fun c k hg => by cases hg).setEngine .granted
      fun f hf => by cases hf
  unfold State.grantHost State.forceSync
  split
  · exact granted (taken.setTarget (k := r.target) (r := { s.target r.target with inSync := false })
      fun ho => h.targets r.target ho)
  · exact granted taken

/-! ## Memory -/

/-- Writes into the data area reach no list and no descriptor in use. -/
theorem writeData (h : s.WorkSound) {a : Nat} {bs : List Byte} (hlo : Config.dataBase ≤ a)
    (hhi : a + bs.length ≤ Config.tableSize) : (s.writeMem a bs).WorkSound := by
  have base : Config.dataBase = 0xD00 := rfl
  refine h.writeMem (le_trans (by decide) hlo) hhi (fun n i ha hi => .inr ?_) (fun c ha => .inr ?_)
  · obtain ⟨_, within, _⟩ := list_of_dutyValid (h.duties n ha)
    have := ((lists_iff _ i).mp hi).2
    rw [transactionAddress_eq]
    omega
  · have := (h.channels c ha).1
    rw [slotAddress_eq]
    omega

/-- DATA of a transaction record is no part of what makes the record valid. -/
theorem writeTransactionData (h : s.WorkSound) {i : Nat} {bs : List Byte} (hi : i < 128) (hl : bs.length ≤ 4) :
    (s.writeMem (transactionData i) bs).WorkSound := by
  have size : Config.tableSize = 0x2000 := rfl
  have base : Config.descriptorBase = 0x600 := rfl
  rw [transactionData_eq]
  refine h.writeMem (by omega) (by omega) (fun n j ha hj => ?_) (fun c ha => .inr ?_)
  · rw [transactionAddress_eq]
    omega
  · have := (h.channels c ha).1
    rw [slotAddress_eq]
    omega

theorem storeReceived (h : s.WorkSound) {f : Frame} (o : FrameOutcome) (data : List Sample) (hf : f.inRange) :
    (s.storeReceived f o data).WorkSound := by
  have length := length_receivedBytes f data
  unfold State.storeReceived
  split
  · split
    · rename_i i hp
      simp only [Frame.inRange, hp] at hf
      split
      · exact h.writeTransactionData hf.1 (length ▸ hf.2)
      · exact h
    · rename_i a hp
      simp only [Frame.inRange, hp] at hf
      exact h.writeData hf.1 (length ▸ hf.2)
    · exact h
  · exact h

theorem active_setHostByte_channel (r : ChannelRec) (off : Nat) (v : Byte) : (r.setHostByte off v).active = r.active := by
  unfold ChannelRec.setHostByte
  split <;> rfl

/-- Record protection keeps host writes off what is in use (R60, R61). -/
theorem putHostByte (h : s.WorkSound) (hr : s.grantRuns) {a : BitVec 13} (v : Byte) (ht : s.takesWrite a = true) :
    (s.putHostByte a v).WorkSound := by
  have free : s.configurable (placeOf a) = true := (Bool.and_eq_true_iff.mp ht).2
  have base : Config.descriptorBase = 0x600 := rfl
  have top : a.toNat + [v].length ≤ Config.tableSize := a.isLt
  unfold State.putHostByte
  cases hp : placeOf a with
  | target k off =>
    rw [hp] at free
    have offline : (s.target k).state = .offline := by simpa [State.configurable] using free
    exact h.setTarget fun ho => absurd ((state_setHostByte_target ..).trans offline) ho
  | channel c off =>
    rw [hp] at free
    have idle : (s.channel c).active = false := by simpa [State.configurable] using free
    have kept : ((s.channel c).setHostByte off v).active = false := (active_setHostByte_channel ..).trans idle
    exact h.setChannel_of_ne_busy (fun hb => by simp [ChannelRec.active, hb] at idle) fun ha => by simp [kept] at ha
  | duty n off =>
    have idle := not_active_of_takesWrite ht hp
    refine h.setDuty_of_idle hr idle ?_
    unfold DutyRec.active at idle ⊢
    rw [state_setHostByte]
    exact idle
  | descriptor slot off =>
    obtain ⟨address, hoff, hslot⟩ := placeOf_descriptor hp
    rw [hp] at free
    have others : ∀ c, (s.channel c).active = true → (s.channel c).currentSlot.toNat ≠ slot := by
      simpa [State.configurable, mem_allSixteen] using free
    rw [slotAddress_eq] at address
    refine h.writeMem (by omega) top (fun n i ha hi => .inl ?_) fun c ha => ?_
    · rw [transactionAddress_eq, address, List.length_singleton]
      omega
    · have := others c ha
      rw [slotAddress_eq, address, List.length_singleton]
      omega
  | transaction i off =>
    obtain ⟨address, hoff, hi⟩ := placeOf_transaction hp
    rw [hp] at free
    have others : ∀ n, (s.duty n).active = true → (s.duty n).lists i = false := by
      simpa [State.configurable, mem_allDuties] using free
    rw [transactionAddress_eq] at address
    refine h.writeMem (by omega) top (fun n j ha hj => ?_) fun c ha => .inr ?_
    · have apart : j ≠ i := fun e => by
        have := others n ha
        rw [← e, hj] at this
        cases this
      rw [transactionAddress_eq, address, List.length_singleton]
      omega
    · have := (h.channels c ha).1
      rw [slotAddress_eq]
      omega
  | data => exact h.writeData (placeOf_data hp) top

end State.WorkSound

end Sys2Proof.Machine
end

section
namespace Sys2Proof.Machine

open Sys2Proof

/-! ## Every act on the work -/

/-- The frame of any record of a valid list moves at most 4 bytes of one of the 128 records (R36). -/
theorem inRange_transactionFrame {s : State} {n : Fin 32} {position : Nat} (hv : s.dutyValid n = true)
    (h1 : 1 ≤ position) (hp : position ≤ (s.duty n).listLength.toNat) (t : Fin 16) :
    (s.transactionFrame t (s.recordAt n position)).inRange := by
  obtain ⟨_, within, valid⟩ := list_of_dutyValid hv
  have listed : (s.duty n).lists (s.recordAt n position) = true := by
    rw [lists_iff]
    unfold State.recordAt
    omega
  have := (lists_iff _ _).mp listed
  exact ⟨by omega, transactionLength_le (valid _ listed)⟩

/-- The data frame of a unit in range, and its acknowledge frame, which moves a value of the descriptor. -/
theorem inRange_unitFrames {s : State} {c : Fin 16} (acknowledge : Bool) (h : s.unitInRange c = true) :
    (if acknowledge then s.acknowledgeFrame c else s.unitFrame c).inRange := by
  cases acknowledge with
  | true => trivial
  | false =>
    simp only [State.unitInRange, Bool.and_eq_true, decide_eq_true_eq] at h
    exact h

theorem inRange_requestFrame {r : Request} (h : r.inRange) : r.frame.inRange := h.2

theorem workSound_cleared (s : State) (lines : Byte) : (s.cleared lines).WorkSound := by
  obtain ⟨-, -, -, -, -, -, -, -, kept⟩ := invariantsHoldAfterReset lines (State.reset.cleared lines) (by simp)
  exact ((workKept_iff _).mp kept rfl).of_eq rfl rfl rfl rfl rfl rfl rfl rfl

theorem workSound_softResetEffects {s : State} (h : s.WorkSound) (hf : s.frameOnBus = none) :
    s.softResetEffects.WorkSound := by
  have idle : ∀ n, (s.softResetEffects.duty n).active = false := fun n => by rw [duty_softResetEffects]; rfl
  have quiet : ∀ c, (s.softResetEffects.channel c).active = false := fun c => by rw [channel_softResetEffects]; rfl
  obtain ⟨_, _, _, e⟩ := softResetEffects_frame s
  have mem : s.softResetEffects.mem = s.mem := by rw [e]
  have requests : s.softResetEffects.requests = [] := by rw [e]
  have inFlight : s.softResetEffects.inFlight = none := by rw [e]
  have grant : s.softResetEffects.grant = none := by rw [e]
  refine ⟨mem ▸ h.memory, fun t ht => ?_, by simp [requests, inFlight], by simp [idle], by simp [quiet],
    by simp [grant], by simp [grant], by simp [frameOnBus_softResetEffects hf]⟩
  rw [target_softResetEffects] at ht ⊢
  exact h.targets t ht

/-- An act keeps the work in use valid where the part runs on, the queue holds the DUE duties, a granted duty runs and
the frame on the bus goes to an ONLINE target. -/
theorem Act.workSound {s t : State} (h : Act s t) (ht : t.phase = .running) (hq : s.dueQueueExact) (hr : s.grantRuns)
    (hf : s.framesOnline) (hs : s.WorkSound) : t.WorkSound := by
  have granted : ∀ {n p}, s.grant = some (.duty n p) → s.dutyValid n = true := fun hg =>
    hs.duties _ ((active_iff _).mpr (.inr (.inr (hr _ _ hg))))
  cases h with
  | quiet e =>
    refine hs.of_eq ?_ ?_ ?_ ?_ ?_ ?_ ?_ ?_ <;> rw [e]
    rfl
  -- memory
  | hostByte a v h => exact hs.putHostByte hr v h
  | stores a o data h => exact hs.storeReceived o data (hs.frame _ (by simp [State.frameOnBus, h]))
  | race a v =>
    refine hs.of_eq ?_ ?_ ?_ ?_ ?_ ?_ ?_ (frameOnBus_raceWrite s a v) <;> rw [raceWrite_frame]
  -- duties
  | dutyMarks n d h => exact hs.setDuty (by rw [h]; rfl) fun ha => hs.duties n (by rw [h] at ha; exact ha)
  | arms n ha hv => exact hs.setDuty rfl fun _ => hv
  | disarms n h => exact hs.setDuty rfl fun ha => by cases ha
  | disarmsDue n h => exact (hs.setDueQueue _).setDuty (by rfl) fun ha => by cases ha
  | cuts n h => exact (hs.setDuty (d := (s.duty n).cut) rfl fun ha => by cases ha).endGrant
  | expires n h => exact hs.expireDuty h
  | runSucceeds n p hg => exact (hs.settleDuty (d := (s.duty n).succeed) rfl (granted hg)).endGrant
  | runFails n x p hg => exact hs.runFailed x p (granted hg)
  -- channels
  | channelMarks c r h => exact hs.setChannel_same (by rw [h]) (by rw [h]) (by rw [h])
  | arrives c => exact hs.arriveAt c
  | halts c h ho =>
    exact hs.setChannel_of_ne_busy (by simp [waiting_of_hasTrigger h]) fun ha => by cases ha
  | starts c ha h47 hv =>
    refine hs.setChannel_of_ne_busy (fun hb => ?_) fun _ => ⟨h47, hv⟩
    simp [ChannelRec.active, hb] at ha
  | stops c h => exact hs.setChannel_of_ne_busy (by simp [h]) fun ha => by cases ha
  | unitEnds c x k hg => exact hs.unitEnd x ((channelActive_iff _).mpr (.inr (hs.unit c k hg).1))
  -- targets
  | targetMarks k r h => exact hs.setTarget fun ho => by rw [h] at ho ⊢; exact hs.targets k ho
  | comesOnline k ho hv => exact hs.setTarget fun _ => hv
  | goesOffline k h => exact hs.setTarget fun ho => absurd rfl ho
  | counts a o h =>
    have online := hf a.frame (by simp [State.frameOnBus, h])
    have valid := hs.targets a.frame.target fun off => by simp [State.online, off] at online
    exact (hs.setTarget fun _ => (valid_outcome ..).trans valid).setEngine _ fun f hf => by cases hf
  -- host requests
  | submits hv hfree =>
    refine hs.setRequests (i := s.inFlight) (w := s.hostWait) (cs := s.completions) fun r hr => ?_
    rcases hr with hr | hr
    · rcases List.mem_append.mp hr with hr | hr
      · exact hs.requests r (.inl hr)
      · rw [List.mem_singleton.mp hr]
        exact inRange_stagedRequest hv
    · exact hs.requests r (.inr hr)
  | disposes => exact hs.disposeHeads
  | flushes => exact hs.setRequests (q := []) fun r hr => hs.requests r (.inr (by simpa using hr))
  | requestEnds r c hg hi =>
    exact (hs.setRequests (q := s.requests) (i := none) (w := s.hostWait) (cs := s.completions ++ [c]) fun r hr =>
      hs.requests r (.inl (by simpa using hr))).endGrant
  -- the bus
  | takes k hfree hsoft hc =>
    cases k with
    | duty n =>
      refine hs.grantDuty (hs.duties n ((active_iff _).mpr ?_))
      exact (choice_duty hc).2.elim (fun h => .inr (.inl ((hq.2 n).mp h))) .inl
    | channel c => exact hs.grantChannel (waiting_of_hasTrigger (choice_channel hc).1)
    | host r =>
      obtain ⟨rest, e⟩ := choice_host hc
      exact hs.grantHost (by simp [e])
  | grantEnds => exact hs.endGrant
  | startsTransaction n p hg ho =>
    obtain ⟨first, last⟩ := hs.position n p hg
    exact hs.startFrame (inRange_transactionFrame (granted hg) first last _)
  | startsUnitFrame c k hg ho => exact hs.startFrame (inRange_unitFrames k (hs.unit c k hg).2)
  | startsRequestFrame r hg hi ho => exact hs.startFrame (inRange_requestFrame (hs.requests r (.inr hi)))
  | waitsToRetry a h =>
    exact hs.setEngine _ fun f hf => hs.frame f (by simpa [State.frameOnBus, h] using hf)
  | retries a h =>
    exact hs.setEngine _ fun f hf => hs.frame f (by simpa [State.frameOnBus, h, State.newAttempt] using hf)
  | nextPosition n p j k hg he hl =>
    refine (hs.setGrant (g := some (.duty n (p + 1))) (fun m q hm => ?_) fun c k hm => by cases hm).setEngine (.interGap k)
      fun f hf => by cases hf
    cases hm
    exact ⟨Nat.le_add_left 1 p, hl⟩
  | acknowledges c j hg he =>
    refine hs.setGrant (g := some (.channel c true)) (fun m q hm => by cases hm) fun e k hm => ?_
    cases hm
    exact hs.unit c false hg
  | broadcasts b h => exact (hs.setEngine (.broadcast b) fun f hf => by cases hf).of_eq rfl rfl rfl rfl rfl rfl rfl rfl
  | idles e h he => exact hs.setEngine e fun f hf => by rcases he with rfl | rfl <;> cases hf
  -- resets
  | softResets h => exact workSound_softResetEffects hs h
  | fullResets =>
    rw [fullReset_frame] at ht
    exact absurd ht (by decide : State.reset.phase ≠ .running)
  | clears lines h => exact workSound_cleared s lines
  -- acts on no work
  | _ => exact hs.of_eq rfl rfl rfl rfl rfl rfl rfl rfl

/-- Settles O59: each act keeps the work valid, together with the queue, the running grant and the ONLINE frame that the
work rests on. -/
theorem workInUseStaysValid : Obligations.WorkInUseStaysValid := fun s t hq hf hw h => by
  rw [workKept_iff] at hw ⊢
  intro hr
  have kept := step_keeps_while_running (P := fun s => s.queueInOrder ∧ s.grantRuns ∧ s.framesOnline ∧ s.WorkSound)
    (fun a ht ⟨order, runs, online, work⟩ =>
      ⟨a.queueInOrder ht runs order, a.grantRuns runs, a.framesOnline online, a.workSound ht order.1 runs online work⟩)
    (fun s lines => ⟨queueInOrder_cleared s lines, grantRuns_cleared s lines, framesOnline_of_none rfl,
      workSound_cleared s lines⟩) h
    (fun hp => ⟨⟨(hq hp).1, (hq hp).2.1⟩, (hq hp).2.2, hf, hw hp⟩) hr
  exact kept.2.2.2

end Sys2Proof.Machine
end

/-!
SUPPORT. The arbiter's candidates in ACTIVE: which entry, channel, request or pull-in duty each class presents (R35, R53,
R122, R123).
-/

section
namespace Sys2Proof.Machine

open Sys2Proof

/-! ## Searches -/

/-- A search through a list whose ranks rise finds the element of least rank that passes. -/
theorem find?_of_least_rank {α : Type} {p : α → Bool} {rank : α → Nat} {l : List α}
    (hl : l.Pairwise (fun a b => rank a < rank b)) {x : α} (hx : x ∈ l) (hp : p x = true)
    (hleast : ∀ y ∈ l, p y = true → rank x ≤ rank y) : l.find? p = some x := by
  induction l with
  | nil => cases hx
  | cons y l ih =>
    obtain ⟨hy, hl⟩ := List.pairwise_cons.mp hl
    rcases List.mem_cons.mp hx with rfl | hx
    · rw [List.find?_cons_of_pos hp]
    · have skip : ¬p y = true := fun h => absurd (hy x hx) (Nat.not_lt.mpr (hleast y (by simp) h))
      rw [List.find?_cons_of_neg skip]
      exact ih hl hx fun z hz => hleast z (List.mem_cons_of_mem _ hz)

/-! ## The channel class (R87, R123) -/

/-- How far behind the round-robin pointer a channel is searched: 0 for the first above it (R123). -/
def searchRank (pointer c : Fin 16) : Nat := (c.val + 15 - pointer.val) % 16

theorem searchOrder_ranks (s : State) :
    s.searchOrder.Pairwise (fun a b => searchRank s.channelPointer a < searchRank s.channelPointer b) := by
  unfold State.searchOrder
  generalize s.channelPointer = pointer
  revert pointer
  decide

theorem mem_searchOrder (s : State) (c : Fin 16) : c ∈ s.searchOrder := by
  unfold State.searchOrder
  generalize s.channelPointer = pointer
  revert pointer c
  decide

theorem hasTrigger_iff (s : State) (c : Fin 16) :
    s.hasTrigger c = true ↔ (s.channel c).state = .waiting ∧ (s.channel c).pending ≠ 0 := by
  simp [State.hasTrigger]

theorem channelCandidate_of_least {s : State} {c : Fin 16} (hc : s.hasTrigger c = true)
    (h : ∀ e, s.hasTrigger e = true → searchRank s.channelPointer c ≤ searchRank s.channelPointer e) :
    s.channelCandidate = some c :=
  find?_of_least_rank (searchOrder_ranks s) (mem_searchOrder s c) hc fun e _ => h e

theorem channelCandidate_of_none {s : State} (h : ∀ c, s.hasTrigger c = false) : s.channelCandidate = none :=
  List.find?_eq_none.mpr fun c _ => by simp [h c]

/-! ## Pull-in (R52, R53) -/

theorem soonest_mem {s : State} {l : List (Fin 32)} {n : Fin 32} (h : s.soonest l = some n) : n ∈ l := by
  induction l with
  | nil => cases h
  | cons x l ih =>
    unfold State.soonest at h
    split at h
    · cases h
      exact List.mem_cons_self
    · split at h
      · cases h
        exact List.mem_cons_self
      · cases h
        exact List.mem_cons_of_mem _ (ih ‹_›)

/-- Along ascending duties the soonest is the one of fewest REMAINING ticks, the lowest among equals. -/
theorem soonest_of_least {s : State} {l : List (Fin 32)} (hl : l.Pairwise (· < ·)) {n : Fin 32} (hn : n ∈ l)
    (h : ∀ m ∈ l, (s.duty n).remaining.toNat < (s.duty m).remaining.toNat ∨
      (s.duty n).remaining = (s.duty m).remaining ∧ n ≤ m) : s.soonest l = some n := by
  induction l with
  | nil => cases hn
  | cons x l ih =>
    obtain ⟨hx, hl⟩ := List.pairwise_cons.mp hl
    unfold State.soonest
    rcases List.mem_cons.mp hn with rfl | hn
    · split
      · rfl
      · rename_i m hm
        have least : (s.duty n).remaining.toNat ≤ (s.duty m).remaining.toNat := by
          rcases h m (List.mem_cons_of_mem _ (soonest_mem hm)) with lt | ⟨eq, _⟩
          · exact lt.le
          · rw [eq]
        exact if_pos least
    · rw [ih hl hn fun m hm => h m (List.mem_cons_of_mem _ hm)]
      have later : ¬(s.duty x).remaining.toNat ≤ (s.duty n).remaining.toNat := by
        rcases h x List.mem_cons_self with lt | ⟨_, le⟩
        · exact Nat.not_le.mpr lt
        · exact absurd (hx n hn) (not_lt.mpr le)
      exact if_neg later

theorem pullsIn_iff (s : State) (n : Fin 32) : s.pullsIn n = true ↔
    (s.duty n).state = .armed ∧ s.eligible n = true ∧ (s.duty n).balance < ((s.duty n).pullinLimit.toNat : Int) := by
  simp [State.pullsIn, and_assoc]

theorem pullinCandidate_of_least {s : State} {n : Fin 32} (hp : s.pullin = true) (hn : s.pullsIn n = true)
    (h : ∀ m, s.pullsIn m = true → (s.duty n).remaining.toNat < (s.duty m).remaining.toNat ∨
      (s.duty n).remaining = (s.duty m).remaining ∧ n ≤ m) : s.pullinCandidate = some n := by
  unfold State.pullinCandidate
  rw [if_pos hp]
  have ascending : allDuties.Pairwise (· < ·) := by decide
  exact soonest_of_least (ascending.filter _) (List.mem_filter.mpr ⟨mem_allDuties n, hn⟩)
    fun m hm => h m (List.mem_filter.mp hm).2

theorem pullinCandidate_of_none {s : State} (h : s.pullin = true → ∀ n, s.pullsIn n = false) :
    s.pullinCandidate = none := by
  unfold State.pullinCandidate
  split
  · rw [List.filter_eq_nil_iff.mpr fun n _ => by simp [h ‹_› n]]
    rfl
  · rfl

/-! ## The due queue's entries (R34, R35) -/

theorem eligible_iff (s : State) (n : Fin 32) :
    s.eligible n = true ↔ (s.target (s.dutyTarget n)).state = .online ∧ (s.duty n).held = false := by
  simp [State.eligible, State.online]

/-- An eligible entry of slack 0 (R35). -/
abbrev State.urgent (s : State) (n : Fin 32) : Prop := s.eligible n = true ∧ s.slackOf n = 0

theorem urgent_iff (s : State) (n : Fin 32) : (s.eligible n && s.slackOf n == 0) = true ↔ s.urgent n := by
  simp

section
variable {s : State}

theorem firstUrgent_of_split {before after : List (Fin 32)} {n : Fin 32} (hq : s.dueQueue = before ++ n :: after)
    (hb : ∀ m ∈ before, ¬s.urgent m) (hn : s.urgent n) : s.firstUrgent = some n :=
  List.find?_eq_some_iff_append.mpr ⟨(urgent_iff s n).mpr hn, before, after, hq, fun m hm => by
    rw [Bool.not_eq_true', ← Bool.not_eq_true, urgent_iff]
    exact hb m hm⟩

theorem firstUrgent_of_none (h : ∀ n ∈ s.dueQueue, ¬s.urgent n) : s.firstUrgent = none :=
  List.find?_eq_none.mpr fun n hn => by rw [urgent_iff]; exact h n hn

theorem firstEntry_of_split {before after : List (Fin 32)} {n : Fin 32} (hq : s.dueQueue = before ++ n :: after)
    (hb : ∀ m ∈ before, s.eligible m = false) (hn : s.eligible n = true) : s.firstEntry = some n :=
  List.find?_eq_some_iff_append.mpr ⟨hn, before, after, hq, fun m hm => by simp [hb m hm]⟩

theorem firstEntry_of_none (h : ∀ n ∈ s.dueQueue, s.eligible n = false) : s.firstEntry = none :=
  List.find?_eq_none.mpr fun n hn => by simp [h n hn]

/-! ## The middle classes (R122) -/

theorem middleClasses_channel {c : Fin 16} (hc : s.channelCandidate = some c) (h : s.hostWait ≠ 4 ∨ s.requests = []) :
    s.middleClasses = some (.channel c) := by
  unfold State.middleClasses
  rcases h with h | h <;> simp [hc, h]

theorem middleClasses_host {r : Request} {rest : List Request} (hr : s.requests = r :: rest)
    (h : s.hostWait = 4 ∨ s.channelCandidate = none) : s.middleClasses = some (.host r) := by
  unfold State.middleClasses
  rcases h with h | h <;> simp [hr, h]

theorem middleClasses_none (hc : s.channelCandidate = none) (hr : s.requests = []) : s.middleClasses = none := by
  simp [State.middleClasses, hc, hr]

/-! ## The decision in ACTIVE -/

theorem activeChoice_urgent {n : Fin 32} (h : s.firstUrgent = some n) : s.activeChoice = some (.duty n) := by
  simp [State.activeChoice, h]

theorem activeChoice_middle {k : Candidate} (hu : s.firstUrgent = none) (h : s.middleClasses = some k) :
    s.activeChoice = some k := by
  simp [State.activeChoice, hu, h]

theorem activeChoice_last (hu : s.firstUrgent = none) (hm : s.middleClasses = none) :
    s.activeChoice = (s.firstEntry.or s.pullinCandidate).map .duty := by
  cases h : s.firstEntry <;> simp [State.activeChoice, hu, hm, h]

/-- On a free bus in ACTIVE the work that R122 names is granted. -/
theorem arbitrate_of_activeChoice {k : Candidate} (he : s.engine = .free) (hg : s.grant = none)
    (hs : s.softResetPending = false) (hb : s.busState = .active) (h : s.activeChoice = some k) :
    s.arbitrate = s.take k := by
  have choice : s.choice = some k := by simp [State.choice, hb, h]
  unfold State.arbitrate
  rw [if_pos ⟨(busFree_iff s).mpr ⟨he, hg⟩, hs⟩, choice]

/-- In ACTIVE no broadcast is due, so a decision that names no work changes nothing. -/
theorem arbitrate_of_activeChoice_none (hb : s.busState = .active) (h : s.activeChoice = none) : s.arbitrate = s := by
  have choice : s.choice = none := by simp [State.choice, hb, h]
  rcases arbitrate_cases s with ⟨_, e⟩ | ⟨_, _, ⟨k, hk, _⟩ | ⟨_, b, hdue, _⟩ | ⟨_, _, e⟩⟩
  · exact e
  · simp [choice] at hk
  · simp [State.broadcastDue, hb] at hdue
  · exact e

theorem haltDownChannels_of_online
    (h : ∀ c, s.hasTrigger c = true → s.online (s.currentDescriptor c).target = true) : s.haltDownChannels = s := by
  obtain ⟨frame, channel⟩ := haltDownChannels_reads s
  have same : s.haltDownChannels.channels = s.channels := channels_ext fun c => by
    rw [channel c]
    exact if_neg fun ⟨trigger, down⟩ => by simp [h c trigger] at down
  rw [frame, same]

theorem disposeHeads_of_online (h : ∀ r rest, s.requests = r :: rest → s.online r.target = true) : s.disposeHeads = s := by
  have stays : s.disposed = [] := by
    unfold State.disposed
    cases hq : s.requests with
    | nil => rfl
    | cons r rest => simp [h r rest hq]
  unfold State.disposeHeads
  simp [stays]

/-- Where no channel halts, no head is disposed of and no check is to come, the end of an event in ACTIVE is the
arbiter's decision and the disposal behind it. -/
theorem settle_active (he : s.engine ≠ .granted) (hb : s.busState = .active)
    (hc : ∀ c, s.hasTrigger c = true → s.online (s.currentDescriptor c).target = true)
    (hr : ∀ r rest, s.requests = r :: rest → s.online r.target = true) : s.settle = s.arbitrate.disposeHeads := by
  unfold State.settle State.decisions State.startExcursion
  rw [haltDownChannels_of_online hc, disposeHeads_of_online hr, firstCheck_of_ne he, if_neg (by simp [hb])]

end

/-- Settles O39, class by class in the order of R122. -/
theorem activeOrderOfTheArbiter : Obligations.ActiveOrderOfTheArbiter := by
  intro s he hg hs hb urgent presented rank pullin
  have grants : ∀ k, s.activeChoice = some k → s.arbitrate = s.take k := fun k =>
    arbitrate_of_activeChoice he hg hs hb
  have presents : ∀ c, s.hasTrigger c = true ↔ presented c := hasTrigger_iff s
  have absent : (∀ c, ¬presented c) → s.channelCandidate = none := fun h =>
    channelCandidate_of_none fun c => by rw [← Bool.not_eq_true, presents]; exact h c
  have pulls : ∀ n, pullin n ↔ s.pullin = true ∧ s.pullsIn n = true := fun n => by rw [pullsIn_iff]
  refine ⟨eligible_iff s, fun hc hr => ?_, fun before n after hq hbefore hn => ?_, fun hurgent => ?_⟩
  · have free : { s with engine := BusEngine.free } = s := by rw [← he]
    show execGapEnd { s with engine := .gap } = _
    rw [← settle_active (by simp [he]) hb (fun c h => hc c ((presents c).mp h)) hr, execGapEnd, if_pos rfl]
    exact congrArg (fun u : State => Host.Outcome.next u.settle) free
  · exact grants (.duty n) (activeChoice_urgent (firstUrgent_of_split hq hbefore hn))
  · have noUrgent : s.firstUrgent = none := firstUrgent_of_none hurgent
    refine ⟨fun c hc least hw => ?_, fun r rest hr hw => ?_, fun hc hr => ?_⟩
    · have first : s.channelCandidate = some c :=
        channelCandidate_of_least ((presents c).mpr hc) fun e h => least e ((presents e).mp h)
      exact grants (.channel c) (activeChoice_middle noUrgent (middleClasses_channel first hw))
    · exact grants (.host r) (activeChoice_middle noUrgent (middleClasses_host hr (hw.imp_right absent)))
    · have last := activeChoice_last noUrgent (middleClasses_none (absent hc) hr)
      refine ⟨fun before n after hq hbefore hn => ?_, fun hentries => ⟨fun n hn least => ?_, fun h => ?_⟩⟩
      · exact grants (.duty n) (by rw [last, firstEntry_of_split hq hbefore hn]; rfl)
      · have first : s.pullinCandidate = some n := pullinCandidate_of_least ((pulls n).mp hn).1 ((pulls n).mp hn).2
          fun m hm => least m ((pulls m).mpr ⟨hn.1, hm⟩)
        exact grants (.duty n) (by rw [last, firstEntry_of_none hentries, first]; rfl)
      · have noPullin : s.pullinCandidate = none := pullinCandidate_of_none fun on n => by
          rw [← Bool.not_eq_true]
          exact fun hn => h n ((pulls n).mpr ⟨on, hn⟩)
        exact arbitrate_of_activeChoice_none hb (by rw [last, firstEntry_of_none hentries, noPullin]; rfl)

end Sys2Proof.Machine
end

/-!
SUPPORT. The work that holds the grant goes on: the target check, and the frame that it lets start (R38 to R41, R90, R108,
R142, R145).
-/

section
namespace Sys2Proof.Machine

open Sys2Proof

/-! ## The frame that goes out (R145) -/

section
variable {s : State} {f : Frame}

/-- A WRITE to a target that needs a SYNC goes out as the SYNC; any other frame goes out itself (R145). -/
theorem frameFor_cases (s : State) (f : Frame) :
    (f.kind = .write ∧ (s.target f.target).inSync = false ∧ s.frameFor f = syncFrame f.target) ∨
      ((f.kind = .write → (s.target f.target).inSync ≠ false) ∧ s.frameFor f = f) := by
  by_cases h : f.kind = .write ∧ (s.target f.target).inSync = false
  · exact .inl ⟨h.1, h.2, if_pos h⟩
  · exact .inr ⟨fun hk hs => h ⟨hk, hs⟩, if_neg h⟩

/-- What goes out for a frame depends on the targets (R145). -/
theorem frameFor_congr {t : State} (h : t.targets = s.targets) : t.frameFor f = s.frameFor f := by
  unfold State.frameFor State.target
  rw [h]

/-- An attempt is made from the targets and from memory (R131). -/
theorem newAttempt_congr {t : State} {count : Nat} (ht : t.targets = s.targets) (hm : t.mem = s.mem) :
    t.newAttempt f count = s.newAttempt f count := by
  unfold State.newAttempt State.pathBytes State.target
  rw [ht, hm]

/-- The frame of a transaction record is read from memory. -/
theorem transactionFrame_congr {t : State} {k : Fin 16} {i : Nat} (h : t.mem = s.mem) :
    t.transactionFrame k i = s.transactionFrame k i := by
  unfold State.transactionFrame State.transactionKind State.transactionOffset State.transactionLength State.memByte
  rw [h]

/-- The bytes of a WRITE frame of a transaction record are its DATA bytes (R39). -/
theorem pathBytes_of_record {i : Nat} (hk : f.kind = .write) (hp : f.path = .record i) :
    s.pathBytes f = memReadList s.mem (0x0904 + 8 * i) f.length := by
  unfold State.pathBytes
  rw [hk, hp, ← transactionData_eq]

end

/-! ## The frame of a transaction record (R39 to R41) -/

section
variable (s : State) (t : Fin 16) (i : Nat)

theorem kind_transactionFrame_write (h : s.transactionKind i = .write) : (s.transactionFrame t i).kind = .write :=
  if_pos h

theorem kind_transactionFrame_read (h : s.transactionKind i = .readCapture ∨ s.transactionKind i = .readCompare) :
    (s.transactionFrame t i).kind = .read :=
  if_neg (by rcases h with h | h <;> simp [h])

theorem offset_transactionFrame : (s.transactionFrame t i).offset = s.memByte (0x0901 + 8 * i) := by
  show s.memByte (transactionAddress i + 1) = _
  rw [transactionAddress_eq]
  congr 1
  omega

theorem length_transactionFrame : (s.transactionFrame t i).length = (s.memByte (0x0902 + 8 * i)).toNat := by
  show (s.memByte (transactionAddress i + 2)).toNat = _
  rw [transactionAddress_eq]
  congr 2
  omega

end

/-! ## The grant of a duty (R37) -/

theorem duty_grantDuty (s : State) (n m : Fin 32) :
    (s.grantDuty n).duty m = if m = n then { s.duty n with state := .running } else s.duty m :=
  duty_setDuty (s.removeDue n) n m _

/-- The first target check of a granted duty is that of its list's first transaction. -/
theorem firstCheck_grantDuty (s : State) (n : Fin 32) :
    (s.grantDuty n).firstCheck = (s.grantDuty n).startTransaction n 1 := rfl

theorem dutyTarget_grantDuty (s : State) (n : Fin 32) : (s.grantDuty n).dutyTarget n = s.dutyTarget n := by
  unfold State.dutyTarget
  rw [duty_grantDuty, if_pos rfl]

theorem recordAt_grantDuty (s : State) (n : Fin 32) : (s.grantDuty n).recordAt n 1 = (s.duty n).listFirst.toNat := by
  unfold State.recordAt
  rw [duty_grantDuty, if_pos rfl]
  exact Nat.add_sub_cancel ..

/-- The frame of a granted duty's first transaction, or the SYNC in place of its WRITE (R145). -/
def State.firstFrame (s : State) (n : Fin 32) : Frame :=
  s.frameFor (s.transactionFrame (s.dutyTarget n) (s.duty n).listFirst.toNat)

/-- At its first target check a granted duty with an ONLINE target starts its first frame (R38). -/
theorem firstCheck_grantDuty_online {s : State} {n : Fin 32} (h : s.online (s.dutyTarget n) = true) :
    (s.grantDuty n).firstCheck = { s.grantDuty n with
      engine := .attempt (s.newAttempt (s.firstFrame n) 1), busDivInForce := s.busDiv } := by
  have target := dutyTarget_grantDuty s n
  rw [firstCheck_grantDuty]
  rcases startTransaction_cases (s.grantDuty n) n 1 with ⟨_, e⟩ | ⟨down, _⟩
  · rw [e, target, recordAt_grantDuty, State.startFrame, newAttempt_congr (t := s.grantDuty n) (s := s) rfl rfl,
      frameFor_congr (t := s.grantDuty n) (s := s) rfl, transactionFrame_congr (t := s.grantDuty n) (s := s) rfl]
    rfl
  · rw [target] at down
    exact absurd (h.symm.trans down) (by simp)

theorem firstCheck_grantDuty_down {s : State} {n : Fin 32} (h : s.online (s.dutyTarget n) = false) :
    (s.grantDuty n).firstCheck = (s.grantDuty n).runFailed n .targetDown 1 := by
  have target := dutyTarget_grantDuty s n
  rw [firstCheck_grantDuty]
  rcases startTransaction_cases (s.grantDuty n) n 1 with ⟨up, _⟩ | ⟨_, e⟩
  · rw [target] at up
    exact absurd (h.symm.trans up) (by simp)
  · exact e

/-- The first frame by KIND and by the sync mark of the target (R39 to R41, R145). -/
theorem firstFrame_spec (s : State) (n : Fin 32) :
    let i := (s.duty n).listFirst.toNat
    let needsSync := (s.target (s.dutyTarget n)).inSync = false
    let f := s.firstFrame n
    (s.transactionKind i = .write → needsSync → f.kind = .sync) ∧
      (s.transactionKind i = .write → ¬needsSync →
        f.kind = .write ∧ s.pathBytes f = memReadList s.mem (0x0904 + 8 * i) f.length) ∧
      (s.transactionKind i = .readCapture ∨ s.transactionKind i = .readCompare → f.kind = .read) ∧
      (f.kind = .read → f.path = .record i) ∧
      (f.kind ≠ .sync → f.offset = s.memByte (0x0901 + 8 * i) ∧ f.length = (s.memByte (0x0902 + 8 * i)).toNat) := by
  intro i needsSync f
  have write := kind_transactionFrame_write s (s.dutyTarget n) i
  have read := kind_transactionFrame_read s (s.dutyTarget n) i
  rcases frameFor_cases s (s.transactionFrame (s.dutyTarget n) i) with ⟨isWrite, unsynced, e⟩ | ⟨synced, e⟩ <;>
    rw [show f = _ from e]
  · refine ⟨fun _ _ => rfl, fun _ hs => absurd unsynced hs, fun hk => ?_, fun h => (by cases h), fun h => absurd rfl h⟩
    rw [read hk] at isWrite
    cases isWrite
  · exact ⟨fun hk hs => absurd hs (synced (write hk)), fun hk _ => ⟨write hk, pathBytes_of_record (write hk) rfl⟩, read,
      fun _ => rfl, fun _ => ⟨offset_transactionFrame .., length_transactionFrame ..⟩⟩

/-- Settles O41: the grant, the two ends of the first target check, and the frame of a record. -/
theorem grantedDutyStartsItsRun : Obligations.GrantedDutyStartsItsRun := by
  intro s n i needsSync t
  refine ⟨rfl, duty_grantDuty s n, firstCheck_grantDuty_down, fun ho => ?_, fun k j => ?_⟩
  · exact ⟨s.newAttempt (s.firstFrame n) 1, firstCheck_grantDuty_online ho, rfl, target_frameFor .., firstFrame_spec s n⟩
  · have write := kind_transactionFrame_write s k j
    exact ⟨fun hk => ⟨write hk, pathBytes_of_record (write hk) rfl⟩, kind_transactionFrame_read s k j, rfl, rfl,
      offset_transactionFrame s k j, length_transactionFrame s k j⟩

end Sys2Proof.Machine
end

section
namespace Sys2Proof.Machine

open Sys2Proof

/-! ## The first target check is made once, and before a command (R120; log entry 22) -/

theorem engine_startWork_ne (s : State) : s.startWork.engine ≠ .granted := by
  rcases startWork_cases s with ⟨n, p, _, e⟩ | ⟨c, k, _, e⟩ | ⟨r, _, _, e⟩ | ⟨_, e⟩ <;> rw [e]
  · rcases startTransaction_cases s n p with ⟨_, e⟩ | ⟨_, e⟩ <;> rw [e]
    · simp
    · rw [runFailed_frame]
      simp
  · rcases startUnitFrame_cases s c k with ⟨_, e⟩ | ⟨_, e⟩ <;> rw [e]
    · simp
    · rw [unitEnd_frame]
      simp
  · rcases startRequestFrame_cases s r with ⟨_, e⟩ | ⟨_, e⟩ <;> rw [e]
    · simp
    · simp [State.requestEnd]
  · simp

theorem firstCheck_firstCheck (s : State) : s.firstCheck.firstCheck = s.firstCheck := by
  by_cases h : s.engine = .granted
  · rw [firstCheck_of_granted h]
    exact firstCheck_of_ne (engine_startWork_ne s)
  · rw [firstCheck_of_ne h, firstCheck_of_ne h]

/-- The work that goes on finishes a deferred STOP_CHANNEL at most, so it leaves a READY unit READY. -/
theorem unit_startWork {s : State} (h : s.unit = .ready) : s.startWork.unit = .ready := by
  rcases startWork_cases s with ⟨n, p, _, e⟩ | ⟨c, k, _, e⟩ | ⟨r, _, _, e⟩ | ⟨_, e⟩ <;> rw [e]
  · rcases startTransaction_cases s n p with ⟨_, e⟩ | ⟨_, e⟩ <;> rw [e]
    · exact h
    · rw [runFailed_frame]
      exact h
  · rcases startUnitFrame_cases s c k with ⟨_, e⟩ | ⟨_, e⟩ <;> rw [e]
    · exact h
    · rcases unitEnd_cases s c .targetDown with ⟨_, e⟩ | ⟨_, e⟩ <;> rw [e]
      exact h
  · rcases startRequestFrame_cases s r with ⟨_, e⟩ | ⟨_, e⟩ <;> rw [e] <;> exact h
  · exact h

/-! ## CMD_CODE stands apart from the work -/

section
variable (s : State) (code : Byte)

theorem runFailed_cmdCode (n : Fin 32) (cause : Condition) (position : Nat) :
    { s with cmdCode := code }.runFailed n cause position = { s.runFailed n cause position with cmdCode := code } := by
  have hd : { s with cmdCode := code }.duty n = s.duty n := rfl
  unfold State.runFailed State.settleDuty
  simp only [hd]
  split
  · rfl
  · split <;> rfl

theorem unitEnd_cmdCode (c : Fin 16) (failure : Condition) :
    { s with cmdCode := code }.unitEnd c failure = { s.unitEnd c failure with cmdCode := code } := by
  have hc : { s with cmdCode := code }.channel c = s.channel c := rfl
  unfold State.unitEnd
  simp only [hc]
  split <;> rfl

theorem startTransaction_cmdCode (n : Fin 32) (position : Nat) :
    { s with cmdCode := code }.startTransaction n position =
      { s.startTransaction n position with cmdCode := code } := by
  have ho : { s with cmdCode := code }.online ({ s with cmdCode := code }.dutyTarget n) = s.online (s.dutyTarget n) := rfl
  unfold State.startTransaction
  rw [ho]
  split
  · rfl
  · exact runFailed_cmdCode s code n _ position

theorem startUnitFrame_cmdCode (c : Fin 16) (acknowledge : Bool) :
    { s with cmdCode := code }.startUnitFrame c acknowledge =
      { s.startUnitFrame c acknowledge with cmdCode := code } := by
  have ho : { s with cmdCode := code }.online ({ s with cmdCode := code }.currentDescriptor c).target =
      s.online (s.currentDescriptor c).target := rfl
  unfold State.startUnitFrame
  rw [ho]
  split
  · rfl
  · exact unitEnd_cmdCode s code c _

theorem startRequestFrame_cmdCode (r : Request) :
    { s with cmdCode := code }.startRequestFrame r = { s.startRequestFrame r with cmdCode := code } := by
  have ho : { s with cmdCode := code }.online r.target = s.online r.target := rfl
  unfold State.startRequestFrame
  rw [ho]
  split <;> rfl

theorem startWork_cmdCode : { s with cmdCode := code }.startWork = { s.startWork with cmdCode := code } := by
  unfold State.startWork
  simp only
  split
  · exact startTransaction_cmdCode s code _ _
  · exact startUnitFrame_cmdCode s code _ _
  · exact startRequestFrame_cmdCode s code _
  · rfl

theorem firstCheck_cmdCode : { s with cmdCode := code }.firstCheck = { s.firstCheck with cmdCode := code } := by
  by_cases h : s.engine = .granted
  · rw [firstCheck_of_granted h, firstCheck_of_granted (s := { s with cmdCode := code }) h]
    exact startWork_cmdCode s code
  · rw [firstCheck_of_ne h, firstCheck_of_ne (s := { s with cmdCode := code }) h]

end

/-- DISARM_DUTY taken behind a decision finds the run that the first target check has left (R120). -/
theorem exec_disarmDuty_firstCheck {s : State} (hp : s.phase = .running) (hu : s.unit = .ready) :
    exec .disarmDuty s = exec .disarmDuty s.firstCheck := by
  have phase : s.firstCheck.phase = .running := by rw [State.WorkMoves.firstCheck s]; exact hp
  have unit : s.firstCheck.unit = .ready := by
    unfold State.firstCheck
    split
    · exact unit_startWork hu
    · exact hu
  have checked := firstCheck_cmdCode s.firstCheck 0x02
  rw [firstCheck_firstCheck] at checked
  have owner : State.ownDisarmDuty { s with cmdCode := 0x02 } = State.ownDisarmDuty { s.firstCheck with cmdCode := 0x02 } :=
    congrArg State.disarmDuty ((firstCheck_cmdCode s 0x02).trans checked.symm)
  show Host.Outcome.next (s.command 0x02 State.ownDisarmDuty) = .next (s.firstCheck.command 0x02 State.ownDisarmDuty)
  rw [command_taken hp hu, command_taken phase unit, owner]

/-! ## Work goes on (R142) -/

section
variable {s u : State}

/-- Behind the idle gap the work goes on, unless a SOFT_RESET waits (R128, R142). -/
theorem exec_interFrameGapEnd {k : Nat} (he : s.engine = .interGap k) (hs : s.softResetPending = false) :
    exec .interFrameGapEnd s = .next s.continueGrant.settle := by
  show execInterFrameGapEnd s = _
  simp only [execInterFrameGapEnd, he, hs]
  rfl

/-- Work that goes on does so at its first target check and behind an idle gap alike. -/
theorem workGoesOn (hw : s.startWork = u) (hc : s.continueGrant = s.startWork) :
    (s.engine = .granted → s.firstCheck = u) ∧
      ∀ k, s.engine = .interGap k → s.softResetPending = false → exec .interFrameGapEnd s = .next u.settle :=
  ⟨fun h => (firstCheck_of_granted h).trans hw, fun _ he hs => by rw [exec_interFrameGapEnd he hs, hc, hw]⟩

theorem continueGrant_of_duty {n : Fin 32} {position : Nat} (hg : s.grant = some (.duty n position))
    (hd : (s.duty n).disarmPending = false) : s.continueGrant = s.startWork := by
  unfold State.continueGrant
  simp [hg, hd]

theorem continueGrant_of_not_duty (hg : ∀ n position, s.grant ≠ some (.duty n position)) :
    s.continueGrant = s.startWork := by
  unfold State.continueGrant
  split
  · exact absurd ‹_› (hg _ _)
  · rfl

end

/-- Settles O43: each owner's next frame or end, and the rows that find the first check made. -/
theorem nextFrameFollowsTheTargetCheck : Obligations.NextFrameFollowsTheTargetCheck := by
  intro s goes starts
  refine ⟨fun n p hg hd => ?_, fun c k hg => ?_, fun r hg hi => ?_, firstCheck_of_ne, fun he => ⟨fun status data => ?_, ?_,
    exec_disarmDuty_firstCheck⟩⟩
  · have work : s.startWork = s.startTransaction n p := by simp [State.startWork, hg]
    have goesOn := continueGrant_of_duty hg hd
    exact ⟨fun ho => workGoesOn (work.trans (if_pos ho)) goesOn,
      fun ho => workGoesOn (work.trans (if_neg (by simp [ho]))) goesOn⟩
  · have work : s.startWork = s.startUnitFrame c k := by simp [State.startWork, hg]
    have goesOn := continueGrant_of_not_duty (s := s) (by simp [hg])
    exact ⟨fun ho => workGoesOn (work.trans (if_pos ho)) goesOn,
      fun ho => workGoesOn (work.trans (if_neg (by simp [ho]))) goesOn⟩
  · have work : s.startWork = s.startRequestFrame r := by simp [State.startWork, hg, hi]
    have goesOn := continueGrant_of_not_duty (s := s) (by simp [hg])
    exact ⟨fun ho => workGoesOn (work.trans (if_pos ho)) goesOn,
      fun ho => workGoesOn (work.trans (if_neg (by simp [ho]))) goesOn⟩
  · show execAttemptEnd status data s = execAttemptEnd status data s.firstCheck
    unfold execAttemptEnd
    rw [firstCheck_firstCheck]
  · show execReadyTimeout s = execReadyTimeout s.firstCheck
    unfold execReadyTimeout
    rw [firstCheck_firstCheck]

end Sys2Proof.Machine
end

/-!
SUPPORT. A transaction of a run completes: what it stores, and the end of the run or its next position (R39 to R41, R43,
R45).
-/

section
namespace Sys2Proof.Machine

open Sys2Proof

section
variable {s : State} {a : Attempt} {n : Fin 32} {position : Nat} {status : Sample} {data : List Sample} {f : Frame}

/-! ## The frame of a transaction ends OK -/

/-- An OK status ends the frame of a run that is not to be cut, between the count and a TARGET_OFFLINE that waits. -/
theorem exec_runFrame_ok (he : s.engine = .attempt a) (hg : s.grant = some (.duty n position))
    (hr : s.softResetPending = false) (hd : (s.duty n).disarmPending = false)
    (ho : attemptOutcome a.frame status data = .ok) :
    let u := s.countOutcome a.frame.target a.frame.kind .ok
    exec (.attemptEnd status data) s = .next (((u.storeReceived a.frame .ok data).dutyFrameEnd n position a.frame .ok
      data).completeOffline a.frame.target).settle := by
  have last : a.last .ok := fun h => by cases h.1
  have ended := exec_runFrame he hg hr (.inl ⟨status, rfl, ho⟩) last
  simpa only [hd, Bool.false_eq_true, if_false] using ended

theorem dutyFrameEnd_of_sync (hk : f.kind = .sync) : s.dutyFrameEnd n position f .ok data = s.startInterGap 0 := by
  unfold State.dutyFrameEnd
  rw [if_neg (by simp), if_pos hk]

/-- A data frame that ended OK completes its transaction, unless a comparison fails (R39 to R41). -/
theorem dutyFrameEnd_of_complete (hk : f.kind ≠ .sync) (hc : s.transactionKind (s.recordAt n position) = .readCompare →
    s.comparesEqual f (s.recordAt n position) data = true) :
    s.dutyFrameEnd n position f .ok data = s.transactionComplete n position := by
  unfold State.dutyFrameEnd
  rw [if_neg (by simp), if_neg hk]
  refine if_neg fun h => ?_
  simp only [Bool.and_eq_true, decide_eq_true_eq, Bool.not_eq_true'] at h
  rw [hc h.1] at h
  cases h.2

/-- Where every enabled byte equals its DATA byte the comparison passes (R41). -/
theorem comparesEqual_of_eq {i : Nat} (h : ∀ k, k < f.length → s.compareEnable i k = true →
    (receivedBytes f data).getD k 0xFF = s.memByte (0x0904 + 8 * i + k)) : s.comparesEqual f i data = true := by
  rw [State.comparesEqual, List.all_eq_true]
  intro k hk
  rw [transactionData_eq, Bool.or_eq_true, Bool.not_eq_true', beq_iff_eq, ← Bool.not_eq_true]
  exact Decidable.not_or_of_imp (h k (List.mem_range.mp hk))

/-! ## What it stores (R40) -/

/-- The part once the frame `f` of transaction record `i` has ended OK: a READ_CAPTURE's bytes in its DATA (R40). -/
def State.captured (s : State) (i : Nat) (f : Frame) (data : List Sample) : State :=
  { s with mem :=
      if s.transactionKind i = .readCapture then memWriteList s.mem (0x0904 + 8 * i) (receivedBytes f data) else s.mem }

theorem captured_of_readCapture {i : Nat} (h : s.transactionKind i = .readCapture) :
    s.captured i f data = s.writeMem (0x0904 + 8 * i) (receivedBytes f data) := by
  unfold State.captured
  rw [if_pos h]
  rfl

theorem captured_of_ne {i : Nat} (h : s.transactionKind i ≠ .readCapture) : s.captured i f data = s := by
  unfold State.captured
  rw [if_neg h]

/-- A capture leaves the record's bytes ahead of DATA, and all below the record. -/
theorem memByte_captured {i b : Nat} (h : b < 0x0904 + 8 * i) : (s.captured i f data).memByte b = s.memByte b := by
  by_cases hk : s.transactionKind i = .readCapture
  · rw [captured_of_readCapture hk]
    exact memByte_writeMem_outside s _ (.inl h)
  · rw [captured_of_ne hk]

/-- Frame `f` carries out transaction record `i`: a WRITE, or a READ whose bytes are captured or compare equal. -/
def State.carriesOut (s : State) (i : Nat) (f : Frame) (data : List Sample) : Prop :=
  f.kind = .write ∧ s.transactionKind i = .write ∨
    f.kind = .read ∧ f.path = .record i ∧
      (s.transactionKind i = .readCapture ∨ s.transactionKind i = .readCompare ∧
        ∀ k, k < f.length → s.compareEnable i k = true →
          (receivedBytes f data).getD k 0xFF = s.memByte (0x0904 + 8 * i + k))

theorem storeReceived_of_carriesOut {i : Nat} (h : s.carriesOut i f data) :
    s.storeReceived f .ok data = s.captured i f data := by
  rcases h with ⟨hk, ht⟩ | ⟨hk, hp, ht | ⟨ht, _⟩⟩
  · rw [storeReceived_of_not data (.inl (by simp [hk])), captured_of_ne (by simp [ht])]
  · rw [captured_of_readCapture ht, ← transactionData_eq, State.storeReceived, if_pos ⟨hk, rfl⟩, hp]
    exact if_pos ht
  · rw [storeReceived_of_readCompare hp ht, captured_of_ne (by simp [ht])]

/-- A transaction that its frame carries out completes, behind what it stores. -/
theorem dutyFrameEnd_of_carriesOut (h : s.carriesOut (s.recordAt n position) f data) :
    (s.storeReceived f .ok data).dutyFrameEnd n position f .ok data =
      (s.captured (s.recordAt n position) f data).transactionComplete n position := by
  have kind : (s.captured (s.recordAt n position) f data).transactionKind (s.recordAt n position) =
      s.transactionKind (s.recordAt n position) := by
    unfold State.transactionKind
    rw [memByte_captured (by rw [transactionAddress_eq]; omega)]
  rw [storeReceived_of_carriesOut h]
  refine dutyFrameEnd_of_complete (by rcases h with h | h <;> simp [h.1]) fun hk => ?_
  have compare : s.transactionKind (s.recordAt n position) = .readCompare := kind.symm.trans hk
  rcases h with ⟨_, ht⟩ | ⟨_, _, ht | ⟨ht, equal⟩⟩
  · simp [ht] at compare
  · simp [ht] at compare
  · rw [captured_of_ne (by simp [ht])]
    exact comparesEqual_of_eq equal

/-! ## The end of the run, or the next position (R43, R45) -/

/-- A successful run pays one and ends: the duty is DUE and placed, or ARMED, and the grant ends (R45, R48). -/
theorem runSucceeded_eq (s : State) (n : Fin 32) :
    let d := (s.duty n).succeed
    let u := s.setDuty n { d with state := if d.balance < 0 then .due else .armed }
    s.runSucceeded n = { u with
      grant := none, engine := .gap
      dueQueue := if d.balance < 0 then placeBySlack u.slackOf n s.dueQueue else s.dueQueue } := by
  unfold State.runSucceeded
  rcases settleDuty_cases s n (s.duty n).succeed with ⟨hb, e⟩ | ⟨hb, e⟩ <;> rw [e]
  · simp only [if_pos hb]
    rfl
  · simp only [if_neg (not_lt.mpr hb)]
    rfl

theorem transactionComplete_last (h : (s.duty n).listLength.toNat ≤ position) :
    s.transactionComplete n position = s.runSucceeded n := if_pos h

theorem transactionComplete_next (h : position < (s.duty n).listLength.toNat) :
    s.transactionComplete n position =
      { s with
        grant := some (.duty n (position + 1))
        engine := .interGap (1 + (s.memByte (0x0903 + 8 * s.recordAt n position)).toNat) } := by
  have address : transactionAddress (s.recordAt n position) + 3 = 0x0903 + 8 * s.recordAt n position := by
    rw [transactionAddress_eq]
    omega
  unfold State.transactionComplete State.pauseAfter
  rw [if_neg (Nat.not_le.mpr h), address]
  rfl

end

/-- Settles O47: the frame carries its transaction out, and that is the run's last. -/
theorem successfulRunPaysOne : Obligations.SuccessfulRunPaysOne := by
  intro s a n position status data he hg hr hd hl ho i got passes d b e u
  let v := s.countOutcome a.frame.target a.frame.kind .ok
  have carried : v.carriesOut (v.recordAt n position) a.frame data :=
    passes.imp_right fun ⟨hk, hp, _, ht⟩ => ⟨hk, hp, ht⟩
  rw [exec_runFrame_ok he hg hr hd ho, dutyFrameEnd_of_carriesOut carried,
    transactionComplete_last (s := v.captured _ a.frame data) hl, runSucceeded_eq]
  rfl

/-- Settles O49: a SYNC leaves the position, and a transaction that its frame carries out before the last goes on to the
next. -/
theorem runGoesOnAfterATransaction : Obligations.RunGoesOnAfterATransaction := by
  intro s a n position status data he hg hr hd ho i u goesOn
  have ended := exec_runFrame_ok he hg hr hd ho
  have next : ∀ m, (s.captured i a.frame data).mem = m → s.carriesOut i a.frame data → goesOn m :=
    fun m hm carried hl => by
      have pause : (u.captured i a.frame data).memByte (0x0903 + 8 * i) = s.memByte (0x0903 + 8 * i) :=
        memByte_captured (by omega)
      rw [ended, dutyFrameEnd_of_carriesOut (s := u) carried, ← hm, ← pause,
        transactionComplete_next (s := u.captured _ a.frame data) hl]
      rfl
  have stands (ht : s.transactionKind i ≠ .readCapture) : (s.captured i a.frame data).mem = s.mem := by
    rw [captured_of_ne ht]
  refine ⟨fun hk => ?_, fun hk ht => next _ (stands (by simp [ht])) (.inl ⟨hk, ht⟩), fun hk hp => ⟨fun ht _ => ?_,
    fun ht equal => next _ (stands (by simp [ht])) (.inr ⟨hk, hp, .inr ⟨ht, equal⟩⟩)⟩⟩
  · rw [ended, dutyFrameEnd_of_sync hk, storeReceived_of_not data (.inl (by simp [hk]))]
    rfl
  · exact next _ (congrArg State.mem (captured_of_readCapture ht)) (.inr ⟨hk, hp, .inl ht⟩)

end Sys2Proof.Machine
end

/-!
SUPPORT. Table memory byte by byte: the two bytes of a 16-bit field, where a record's bytes lie (R56), what they read
(R58, R70), which of them record protection takes (R60, R61), and the fields of descriptors and transaction records
(R70, R78).
-/

section
namespace Sys2Proof.Machine

open Sys2Proof

/-! ## The two bytes of a 16-bit field -/

theorem toNat_append_bytes (high low : Byte) : (high ++ low : Half).toNat = low.toNat + 256 * high.toNat := by
  rw [BitVec.toNat_append, ← Nat.shiftLeft_add_eq_or_of_lt low.isLt, Nat.shiftLeft_eq]
  omega

theorem toNat_lowByte (h : Half) : (lowByte h).toNat = h.toNat % 256 := by
  simp [lowByte]

theorem toNat_highByte (h : Half) : (highByte h).toNat = h.toNat / 256 := by
  have := h.isLt
  simp only [highByte, BitVec.toNat_setWidth, BitVec.toNat_ushiftRight, Nat.shiftRight_eq_div_pow]
  omega

@[simp] theorem lowByte_withLow (h : Half) (v : Byte) : lowByte (withLow h v) = v := by
  apply BitVec.eq_of_toNat_eq
  rw [toNat_lowByte, withLow, toNat_append_bytes]
  have := v.isLt
  omega

@[simp] theorem highByte_withLow (h : Half) (v : Byte) : highByte (withLow h v) = highByte h := by
  apply BitVec.eq_of_toNat_eq
  rw [toNat_highByte, withLow, toNat_append_bytes]
  have := v.isLt
  omega

@[simp] theorem lowByte_withHigh (h : Half) (v : Byte) : lowByte (withHigh h v) = lowByte h := by
  apply BitVec.eq_of_toNat_eq
  rw [toNat_lowByte, withHigh, toNat_append_bytes]
  have := (lowByte h).isLt
  omega

@[simp] theorem highByte_withHigh (h : Half) (v : Byte) : highByte (withHigh h v) = v := by
  apply BitVec.eq_of_toNat_eq
  rw [toNat_highByte, withHigh, toNat_append_bytes]
  have := (lowByte h).isLt
  omega

/-! ## Where a record's bytes lie (R56) -/

theorem placeOf_target_iff {a : BitVec 13} {t : Fin 16} {off : Nat} :
    placeOf a = .target t off ↔ a.toNat = 16 * t.val + off ∧ off < 16 := by
  unfold placeOf
  simp only
  split_ifs <;> simp [Fin.ext_iff] <;> omega

theorem placeOf_channel_iff {a : BitVec 13} {c : Fin 16} {off : Nat} :
    placeOf a = .channel c off ↔ a.toNat = 0x0100 + 16 * c.val + off ∧ off < 16 := by
  unfold placeOf
  simp only
  split_ifs <;> simp [Fin.ext_iff] <;> omega

theorem placeOf_duty_iff {a : BitVec 13} {n : Fin 32} {off : Nat} :
    placeOf a = .duty n off ↔ a.toNat = 0x0200 + 32 * n.val + off ∧ off < 32 := by
  unfold placeOf
  simp only
  split_ifs <;> simp [Fin.ext_iff] <;> omega

theorem toNat_ofNat_address {k : Nat} (h : k < 0x2000) : (BitVec.ofNat 13 k).toNat = k := by
  rw [BitVec.toNat_ofNat]
  omega

theorem placeOf_targetByte (t : Fin 16) {off : Nat} (h : off < 16) :
    placeOf (BitVec.ofNat 13 (16 * t.val + off)) = .target t off :=
  placeOf_target_iff.mpr ⟨toNat_ofNat_address (by omega), h⟩

theorem placeOf_channelByte (c : Fin 16) {off : Nat} (h : off < 16) :
    placeOf (BitVec.ofNat 13 (0x0100 + 16 * c.val + off)) = .channel c off :=
  placeOf_channel_iff.mpr ⟨toNat_ofNat_address (by omega), h⟩

theorem placeOf_dutyByte (n : Fin 32) {off : Nat} (h : off < 32) :
    placeOf (BitVec.ofNat 13 (0x0200 + 32 * n.val + off)) = .duty n off :=
  placeOf_duty_iff.mpr ⟨toNat_ofNat_address (by omega), h⟩

theorem placeOf_descriptorByte {slot off : Nat} (hs : slot < 48) (h : off < 16) :
    placeOf (BitVec.ofNat 13 (0x0600 + 16 * slot + off)) = .descriptor slot off := by
  unfold placeOf
  simp only [toNat_ofNat_address (show 0x0600 + 16 * slot + off < 0x2000 by omega)]
  rw [if_neg (by omega), if_neg (by omega), if_neg (by omega), if_pos (by omega)]
  congr 1 <;> omega

theorem placeOf_transactionByte {i off : Nat} (hi : i < 128) (h : off < 8) :
    placeOf (BitVec.ofNat 13 (0x0900 + 8 * i + off)) = .transaction i off := by
  unfold placeOf
  simp only [toNat_ofNat_address (show 0x0900 + 8 * i + off < 0x2000 by omega)]
  rw [if_neg (by omega), if_neg (by omega), if_neg (by omega), if_neg (by omega), if_pos (by omega)]
  congr 1 <;> omega

theorem placeOf_dataByte {a : BitVec 13} (h : 0x0D00 ≤ a.toNat) : placeOf a = .data := by
  unfold placeOf
  simp only
  rw [if_neg (by omega), if_neg (by omega), if_neg (by omega), if_neg (by omega), if_neg (by omega)]

/-- An address lies in a target, channel or duty record, or in `mem`. -/
theorem placeOf_cases (a : BitVec 13) :
    (∃ t off, placeOf a = .target t off) ∨ (∃ c off, placeOf a = .channel c off) ∨ (∃ n off, placeOf a = .duty n off) ∨
      0x0600 ≤ a.toNat := by
  cases h : placeOf a with
  | target t off => exact .inl ⟨t, off, rfl⟩
  | channel c off => exact .inr (.inl ⟨c, off, rfl⟩)
  | duty n off => exact .inr (.inr (.inl ⟨n, off, rfl⟩))
  | descriptor slot off =>
    obtain ⟨ha, -, -⟩ := placeOf_descriptor h
    exact .inr (.inr (.inr (by rw [ha, slotAddress_eq]; omega)))
  | transaction i off =>
    obtain ⟨ha, -, -⟩ := placeOf_transaction h
    exact .inr (.inr (.inr (by rw [ha, transactionAddress_eq]; omega)))
  | data => exact .inr (.inr (.inr (Nat.le_trans (by decide) (placeOf_data h))))

/-! ## What an address reads (R56, R58) -/

section
variable {s : State} {a : BitVec 13} {off : Nat}

theorem tableByte_target {t : Fin 16} (h : placeOf a = .target t off) : s.tableByte a = (s.target t).byte off := by
  rw [State.tableByte, h]

theorem tableByte_channel {c : Fin 16} (h : placeOf a = .channel c off) : s.tableByte a = (s.channel c).byte off := by
  rw [State.tableByte, h]

theorem tableByte_duty {n : Fin 32} (h : placeOf a = .duty n off) : s.tableByte a = (s.duty n).byte off := by
  rw [State.tableByte, h]

theorem tableByte_mem (h : 0x0600 ≤ a.toNat) : s.tableByte a = s.memByte a.toNat := by
  unfold State.tableByte
  split
  · have := placeOf_target_iff.mp ‹_›; omega
  · have := placeOf_channel_iff.mp ‹_›; omega
  · have := placeOf_duty_iff.mp ‹_›; omega
  · rfl

end

/-! ## The bytes of a record as numbers (R70) -/

theorem toNat_flagBit (b : Bool) {k : Nat} (h : k < 8) : (flagBit b k).toNat = if b then 2 ^ k else 0 := by
  cases b
  · rfl
  · have : 2 ^ k < 2 ^ 8 := Nat.pow_lt_pow_right (by decide) h
    simpa [flagBit, Nat.shiftLeft_eq] using this

theorem toNat_flags3 (a b c : Bool) : (flagBit a 0 ||| flagBit b 1 ||| flagBit c 2).toNat =
    (if a then 2 ^ 0 else 0) + (if b then 2 ^ 1 else 0) + (if c then 2 ^ 2 else 0) := by
  revert a b c
  decide

theorem toNat_flags4 (a b c d : Bool) : (flagBit a 0 ||| flagBit b 1 ||| flagBit c 2 ||| flagBit d 3).toNat =
    (if a then 2 ^ 0 else 0) + (if b then 2 ^ 1 else 0) + (if c then 2 ^ 2 else 0) + (if d then 2 ^ 3 else 0) := by
  revert a b c d
  decide

theorem toNat_balanceByte (z : Int) : (BitVec.ofInt 8 z).toNat = (z % 256).toNat := by
  rw [BitVec.toNat_ofInt]
  rfl

/-- The bytes that a run of addresses reads, where each reads its byte of one record. -/
theorem map_tableByte {s : State} {base n : Nat} {byte : Nat → Byte}
    (h : ∀ k, k < n → s.tableByte (BitVec.ofNat 13 (base + k)) = byte k) :
    (List.range n).map (fun k => (s.tableByte (BitVec.ofNat 13 (base + k))).toNat) =
      (List.range n).map (fun k => (byte k).toNat) :=
  List.map_congr_left fun k hk => by rw [h k (List.mem_range.mp hk)]

/-- Settles O16: each address of a record reads its byte, and each byte is the field that the layout has there. -/
theorem recordBytesLieAsListed : Obligations.RecordBytesLieAsListed := by
  intro s bit cond
  have code (c : Condition) : c.code.toNat = cond c := by cases c <;> rfl
  have range16 : List.range 16 = [0, 1, 2, 3, 4, 5, 6, 7, 8, 9, 10, 11, 12, 13, 14, 15] := rfl
  have range32 : List.range 32 = [0, 1, 2, 3, 4, 5, 6, 7, 8, 9, 10, 11, 12, 13, 14, 15, 16, 17, 18, 19, 20, 21, 22, 23,
    24, 25, 26, 27, 28, 29, 30, 31] := rfl
  refine ⟨fun t => ?_, fun c => ?_, fun n => ?_, fun a ha => tableByte_mem ha⟩
  · intro r
    have state : r.state.code.toNat = match r.state with | .offline => 0 | .online => 1 | .quarantined => 2 := by
      cases r.state <;> rfl
    rw [map_tableByte (byte := r.byte) fun k hk => tableByte_target (placeOf_targetByte t hk), range16]
    simp only [TargetRec.byte, TargetRec.notices, List.map_cons, List.map_nil, List.cons.injEq, and_true, true_and,
      BitVec.ofNat_eq_ofNat, BitVec.toNat_ofNat, Nat.zero_mod, code, bit, pow_zero, pow_one, Nat.reducePow,
      toNat_lowByte, toNat_highByte, toNat_flags3, Nat.ofNat_pos, toNat_flagBit]
    exact state
  · intro r
    have state : r.state.code.toNat =
        match r.state with | .idle => 0 | .waiting => 1 | .busy => 2 | .done => 3 | .halted => 4 := by
      cases r.state <;> rfl
    rw [map_tableByte (byte := r.byte) fun k hk => tableByte_channel (placeOf_channelByte c hk), range16]
    simp only [ChannelRec.byte, ChannelRec.notices, List.map_cons, List.map_nil, List.cons.injEq, and_true, true_and,
      BitVec.ofNat_eq_ofNat, BitVec.toNat_ofNat, Nat.zero_mod, code, bit, pow_zero, pow_one, Nat.reducePow,
      toNat_lowByte, toNat_highByte, toNat_flags3, Nat.ofNat_pos, toNat_flagBit]
    exact state
  · intro d
    have state : d.state.code.toNat =
        match d.state with | .idle => 0 | .armed => 1 | .due => 2 | .running => 3 | .faulted => 4 := by
      cases d.state <;> rfl
    rw [map_tableByte (byte := d.byte) fun k hk => tableByte_duty (placeOf_dutyByte n hk), range32]
    simp only [DutyRec.byte, DutyRec.notices, List.map_cons, List.map_nil, List.cons.injEq, and_true, true_and,
      BitVec.ofNat_eq_ofNat, BitVec.toNat_ofNat, Nat.zero_mod, code, bit, pow_zero, pow_one, Nat.reducePow,
      toNat_lowByte, toNat_highByte, toNat_flags3, toNat_flags4, toNat_balanceByte]
    exact state

/-! ## Record protection (R60, R61) -/

theorem takesWrite_iff {s : State} {a : BitVec 13} {p : Place} (h : placeOf a = p) :
    s.takesWrite a = true ↔ p.hostByte = true ∧ s.configurable p = true := by
  rw [State.takesWrite, h, Bool.and_eq_true]

theorem channelNotActive_iff (r : ChannelRec) :
    r.active = false ↔ r.state = .idle ∨ r.state = .done ∨ r.state = .halted := by
  cases h : r.state <;> simp [ChannelRec.active, h]

/-- Settles O35, region by region of the map. -/
theorem protectionFollowsTheOwnersState : Obligations.ProtectionFollowsTheOwnersState := by
  intro s
  refine ⟨fun t off h => ?_, fun c off h => ?_, fun n off h => ?_, fun slot off hs h => ?_, fun i off hi h => ?_,
    fun a h => ?_⟩
  · rw [takesWrite_iff (placeOf_targetByte t h)]
    simp [Place.hostByte, State.configurable]
  · rw [takesWrite_iff (placeOf_channelByte c h)]
    simp [Place.hostByte, State.configurable, channelNotActive_iff]
  · rw [takesWrite_iff (placeOf_dutyByte n h)]
    simp [Place.hostByte, State.configurable, not_active_iff]
  · rw [takesWrite_iff (placeOf_descriptorByte hs h)]
    simp [Place.hostByte, State.configurable, mem_allSixteen, channelActive_iff]
  · rw [takesWrite_iff (placeOf_transactionByte hi h)]
    simp [Place.hostByte, State.configurable, mem_allDuties, active_iff, lists_iff]
  · exact (takesWrite_iff (placeOf_dataByte h)).mpr ⟨rfl, rfl⟩

/-! ## Descriptors and transaction records (R70, R78) -/

theorem toNat_memHalf (s : State) (a : Nat) :
    (s.memHalf a).toNat = (s.memByte a).toNat + 256 * (s.memByte (a + 1)).toNat :=
  toNat_append_bytes _ _

/-- The checks of R78, item by item. -/
theorem descriptorValid_iff (d : Descriptor) : d.valid = true ↔
    (d.unitSize = 1 ∨ d.unitSize = 2 ∨ d.unitSize = 4) ∧ (1 ≤ d.count.toNat ∧ d.count.toNat ≤ 4096) ∧
      d.endAction.toNat ≤ 2 ∧ (d.endAction = 1 → d.nextSlot.toNat ≤ 47) ∧
      0x0D00 ≤ d.memoryStart.toNat ∧ d.memoryStart.toNat + d.unitSize.toNat ≤ 0x2000 := by
  have action : (d.endAction = 0 ∨ d.endAction = 1 ∧ d.nextSlot.toNat ≤ 47 ∨ d.endAction = 2) ↔
      d.endAction.toNat ≤ 2 ∧ (d.endAction = 1 → d.nextSlot.toNat ≤ 47) := by
    simp only [← BitVec.toNat_inj, show (0 : Byte).toNat = 0 from rfl, show (1 : Byte).toNat = 1 from rfl,
      show (2 : Byte).toNat = 2 from rfl]
    omega
  rw [← and_assoc (a := d.endAction.toNat ≤ 2), ← action]
  simp only [Descriptor.valid, Bool.and_eq_true, Bool.or_eq_true, beq_iff_eq, decide_eq_true_eq, and_assoc, or_assoc]
  rfl

theorem transactionKind_write_iff (s : State) (i : Nat) :
    s.transactionKind i = .write ↔ (s.memByte (transactionAddress i)).toNat % 4 = 1 := by
  unfold State.transactionKind
  split <;> simp_all

theorem transactionKind_readCapture_iff (s : State) (i : Nat) :
    s.transactionKind i = .readCapture ↔ (s.memByte (transactionAddress i)).toNat % 4 = 2 := by
  unfold State.transactionKind
  split <;> simp_all

/-- Settles O15: the fields are read by definition, the halves from two bytes, and the checks of R78 item by item. -/
theorem descriptorsAreReadAndCheckedAsListed : Obligations.DescriptorsAreReadAndCheckedAsListed := by
  intro s
  refine ⟨fun slot => ?_, fun _ => rfl, fun i => ?_⟩
  · intro byte half d
    have start : d.memoryStart.toNat = half 4 := toNat_memHalf _ _
    have count : d.count.toNat = half 6 := toNat_memHalf _ _
    refine ⟨bne_iff_ne, rfl, rfl, rfl, rfl, rfl, start, count, rfl, rfl, bne_iff_ne, rfl, rfl, bne_iff_ne, ?_⟩
    rw [descriptorValid_iff, start, count]
    rfl
  · exact ⟨transactionKind_write_iff s i, transactionKind_readCapture_iff s i, transactionKind_readCompare_iff s i,
      fun _ => rfl, rfl, rfl, rfl⟩

end Sys2Proof.Machine
end

/-!
SUPPORT. A write through TM_DATA: the byte it replaces, what it leaves (R59, R60), and its race with a WRITE attempt on
the bus (R65).
-/

section
namespace Sys2Proof.Machine

open Sys2Proof

/-! ## A host byte of a record -/

theorem TargetRec.byte_setHostByte (r : TargetRec) {off : Nat} (v : Byte) (h : off ≤ 5) :
    (r.setHostByte off v).byte off = v := by
  interval_cases off <;> rfl

theorem ChannelRec.byte_setHostByte (r : ChannelRec) {off : Nat} (v : Byte) (h : off ≤ 1) :
    (r.setHostByte off v).byte off = v := by
  interval_cases off <;> rfl

theorem DutyRec.byte_setHostByte (d : DutyRec) {off : Nat} (v : Byte) (h : off ≤ 11) :
    (d.setHostByte off v).byte off = v := by
  interval_cases off <;> simp [DutyRec.setHostByte, DutyRec.byte]

theorem TargetRec.byte_setHostByte_ne (r : TargetRec) {off k : Nat} (v : Byte) (h : k ≠ off) :
    (r.setHostByte off v).byte k = r.byte k := by
  unfold TargetRec.setHostByte
  split <;> unfold TargetRec.byte <;> split <;> trivial

theorem ChannelRec.byte_setHostByte_ne (r : ChannelRec) {off k : Nat} (v : Byte) (h : k ≠ off) :
    (r.setHostByte off v).byte k = r.byte k := by
  unfold ChannelRec.setHostByte
  split <;> unfold ChannelRec.byte <;> split <;> trivial

theorem DutyRec.byte_setHostByte_ne (d : DutyRec) {off k : Nat} (v : Byte) (h : k ≠ off) :
    (d.setHostByte off v).byte k = d.byte k := by
  unfold DutyRec.setHostByte
  split <;> unfold DutyRec.byte <;> split <;> try trivial
  all_goals simp

/-- `q` is `r` with other host fields at most (R60). -/
def TargetRec.hardwareStands (r q : TargetRec) : Prop :=
  q = { r with
    profile := q.profile, settleCycles := q.settleCycles, pace := q.pace, readyLimit := q.readyLimit
    retryLimit := q.retryLimit, quarantineThreshold := q.quarantineThreshold }

/-- `q` is `r` with other host fields at most (R60). -/
def ChannelRec.hardwareStands (r q : ChannelRec) : Prop :=
  q = { r with triggerLine := q.triggerLine, firstSlot := q.firstSlot }

/-- `e` is `d` with other host fields at most (R60). -/
def DutyRec.hardwareStands (d e : DutyRec) : Prop :=
  e = { d with
    target := e.target, postponeLimit := e.postponeLimit, interval := e.interval, phase := e.phase
    pullinLimit := e.pullinLimit, listFirst := e.listFirst, listLength := e.listLength
    faultThreshold := e.faultThreshold, quietPolicy := e.quietPolicy, notifyOnRun := e.notifyOnRun }

theorem TargetRec.hardwareStands_setHostByte (r : TargetRec) (off : Nat) (v : Byte) :
    r.hardwareStands (r.setHostByte off v) := by
  unfold TargetRec.setHostByte
  split <;> rfl

theorem ChannelRec.hardwareStands_setHostByte (r : ChannelRec) (off : Nat) (v : Byte) :
    r.hardwareStands (r.setHostByte off v) := by
  unfold ChannelRec.setHostByte
  split <;> rfl

theorem DutyRec.hardwareStands_setHostByte (d : DutyRec) (off : Nat) (v : Byte) :
    d.hardwareStands (d.setHostByte off v) := by
  unfold DutyRec.setHostByte
  split <;> rfl

/-! ## One record set, or one byte of `mem` written -/

section
variable {s : State} {a : BitVec 13}

theorem tableByte_setTarget {t : Fin 16} {r : TargetRec}
    (h : ∀ off, placeOf a = .target t off → r.byte off = (s.target t).byte off) :
    (s.setTarget t r).tableByte a = s.tableByte a := by
  unfold State.tableByte
  split
  · rename_i k off hp
    rw [target_setTarget]
    split
    · rename_i e
      rw [e] at hp ⊢
      exact h off hp
    · rfl
  all_goals rfl

theorem tableByte_setChannel {c : Fin 16} {r : ChannelRec}
    (h : ∀ off, placeOf a = .channel c off → r.byte off = (s.channel c).byte off) :
    (s.setChannel c r).tableByte a = s.tableByte a := by
  unfold State.tableByte
  split
  · rfl
  · rename_i k off hp
    rw [channel_setChannel]
    split
    · rename_i e
      rw [e] at hp ⊢
      exact h off hp
    · rfl
  all_goals rfl

theorem tableByte_setDuty {n : Fin 32} {d : DutyRec}
    (h : ∀ off, placeOf a = .duty n off → d.byte off = (s.duty n).byte off) :
    (s.setDuty n d).tableByte a = s.tableByte a := by
  unfold State.tableByte
  split
  · rfl
  · rfl
  · rename_i k off hp
    rw [duty_setDuty]
    split
    · rename_i e
      rw [e] at hp ⊢
      exact h off hp
    · rfl
  · rfl

theorem tableByte_writeMem {p : Nat} (bs : List Byte) (h : a.toNat < p ∨ p + bs.length ≤ a.toNat) :
    (s.writeMem p bs).tableByte a = s.tableByte a := by
  unfold State.tableByte
  split
  · rfl
  · rfl
  · rfl
  · exact memByte_writeMem_outside s bs h

/-! ## A taken host write (R59) -/

theorem putHostByte_target {t : Fin 16} {off : Nat} (v : Byte) (h : placeOf a = .target t off) :
    s.putHostByte a v = s.setTarget t ((s.target t).setHostByte off v) := by
  rw [State.putHostByte, h]

theorem putHostByte_channel {c : Fin 16} {off : Nat} (v : Byte) (h : placeOf a = .channel c off) :
    s.putHostByte a v = s.setChannel c ((s.channel c).setHostByte off v) := by
  rw [State.putHostByte, h]

theorem putHostByte_duty {n : Fin 32} {off : Nat} (v : Byte) (h : placeOf a = .duty n off) :
    s.putHostByte a v = s.setDuty n ((s.duty n).setHostByte off v) := by
  rw [State.putHostByte, h]

theorem putHostByte_mem (v : Byte) (h : 0x0600 ≤ a.toNat) : s.putHostByte a v = s.writeMem a.toNat [v] := by
  unfold State.putHostByte
  split
  · have := placeOf_target_iff.mp ‹_›; omega
  · have := placeOf_channel_iff.mp ‹_›; omega
  · have := placeOf_duty_iff.mp ‹_›; omega
  · rfl

/-- The byte at the address of a taken write is the byte written. -/
theorem tableByte_putHostByte_same (v : Byte) (ht : s.takesWrite a = true) (hm : memWf s.mem = true) :
    (s.putHostByte a v).tableByte a = v := by
  rcases placeOf_cases a with ⟨t, off, h⟩ | ⟨c, off, h⟩ | ⟨n, off, h⟩ | h
  · have host : off ≤ 5 := of_decide_eq_true ((takesWrite_iff h).mp ht).1
    rw [putHostByte_target v h, tableByte_target h, target_setTarget, if_pos rfl, TargetRec.byte_setHostByte _ v host]
  · have host : off ≤ 1 := of_decide_eq_true ((takesWrite_iff h).mp ht).1
    rw [putHostByte_channel v h, tableByte_channel h, channel_setChannel, if_pos rfl,
      ChannelRec.byte_setHostByte _ v host]
  · have host : off ≤ 11 := of_decide_eq_true ((takesWrite_iff h).mp ht).1
    rw [putHostByte_duty v h, tableByte_duty h, duty_setDuty, if_pos rfl, DutyRec.byte_setHostByte _ v host]
  · rw [putHostByte_mem v h, tableByte_mem h]
    exact memRead_memWrite_same a.toNat v hm

/-- Every other byte of table memory reads as before a host write. -/
theorem tableByte_putHostByte_ne {b : BitVec 13} (v : Byte) (hb : b ≠ a) :
    (s.putHostByte a v).tableByte b = s.tableByte b := by
  have apart : b.toNat ≠ a.toNat := fun e => hb (BitVec.eq_of_toNat_eq e)
  rcases placeOf_cases a with ⟨t, off, h⟩ | ⟨c, off, h⟩ | ⟨n, off, h⟩ | h
  · rw [putHostByte_target v h]
    refine tableByte_setTarget fun k hk => TargetRec.byte_setHostByte_ne _ v ?_
    have := placeOf_target_iff.mp h
    have := placeOf_target_iff.mp hk
    omega
  · rw [putHostByte_channel v h]
    refine tableByte_setChannel fun k hk => ChannelRec.byte_setHostByte_ne _ v ?_
    have := placeOf_channel_iff.mp h
    have := placeOf_channel_iff.mp hk
    omega
  · rw [putHostByte_duty v h]
    refine tableByte_setDuty fun k hk => DutyRec.byte_setHostByte_ne _ v ?_
    have := placeOf_duty_iff.mp h
    have := placeOf_duty_iff.mp hk
    omega
  · rw [putHostByte_mem v h]
    exact tableByte_writeMem [v] (by rw [List.length_singleton]; omega)

/-- A host write below 0x0600 leaves `mem` and moves host fields of records only (R59, R60). -/
theorem putHostByte_record (v : Byte) (ha : a.toNat < 0x0600) :
    let t := s.putHostByte a v
    t.mem = s.mem ∧ (∀ k, (s.target k).hardwareStands (t.target k)) ∧
      (∀ c, (s.channel c).hardwareStands (t.channel c)) ∧ ∀ n, (s.duty n).hardwareStands (t.duty n) := by
  rcases placeOf_cases a with ⟨t, off, h⟩ | ⟨c, off, h⟩ | ⟨n, off, h⟩ | h
  · rw [putHostByte_target v h]
    refine ⟨rfl, fun k => ?_, fun _ => rfl, fun _ => rfl⟩
    rw [target_setTarget]
    split
    · rename_i e
      exact e ▸ TargetRec.hardwareStands_setHostByte _ off v
    · rfl
  · rw [putHostByte_channel v h]
    refine ⟨rfl, fun _ => rfl, fun k => ?_, fun _ => rfl⟩
    rw [channel_setChannel]
    split
    · rename_i e
      exact e ▸ ChannelRec.hardwareStands_setHostByte _ off v
    · rfl
  · rw [putHostByte_duty v h]
    refine ⟨rfl, fun _ => rfl, fun _ => rfl, fun k => ?_⟩
    rw [duty_setDuty]
    split
    · rename_i e
      exact e ▸ DutyRec.hardwareStands_setHostByte _ off v
    · rfl
  · omega

end

/-! ## The port (R58, R59, R63, R65) -/

section
variable {s : State} {v : Byte}

/-- `s` behind the first target check, with the byte at TM_PTR replaced and the frame on the bus raced. -/
def State.byteTaken (s : State) (v : Byte) : State :=
  (s.firstCheck.putHostByte s.tmPtr v).raceWrite s.tmPtr.toNat v

theorem exec_tmDataWrite (hp : s.phase = .running) : exec (.tmDataWrite v) s = .next (s.writeTableData v) :=
  windowWrite_of_running hp 0x0A

theorem exec_tmDataWrite_taken (hp : s.phase = .running) (ht : s.firstCheck.takesWrite s.tmPtr = true) :
    exec (.tmDataWrite v) s = .next { s.byteTaken v with tmPtr := s.tmPtr + 1 } := by
  rw [exec_tmDataWrite hp, State.writeTableData]
  simp only
  rw [if_pos ht]
  rfl

theorem exec_tmDataWrite_discarded (hp : s.phase = .running) (ht : s.firstCheck.takesWrite s.tmPtr = false) :
    exec (.tmDataWrite v) s = .next { s.firstCheck.guardWrite s.tmPtr with tmPtr := s.tmPtr + 1 } := by
  rw [exec_tmDataWrite hp, State.writeTableData]
  simp only
  rw [if_neg (by simp [ht])]

/-- The race leaves the bus alone where no WRITE attempt on it sends the byte from the data area (R65). -/
theorem raceWrite_of_not_sent {p : Nat} (h : ∀ (a : Attempt) (b : Nat), s.engine = .attempt a → a.frame.kind = .write →
    a.frame.path = .area b → p < b ∨ b + a.frame.length ≤ p) : s.raceWrite p v = s := by
  unfold State.raceWrite
  cases he : s.engine with
  | attempt a =>
    have unsent : a.sends p = none := by
      unfold Attempt.sends
      split
      · have := h a _ he ‹_› ‹_›
        exact if_neg (by omega)
      · rfl
    simp only [unsent]
  | _ => rfl

/-- The race at a byte that the WRITE attempt on the bus sends: the new byte goes out unless the old one has (R65). -/
theorem engine_raceWrite_of_sent {a : Attempt} {b i p : Nat} (he : s.engine = .attempt a) (hk : a.frame.kind = .write)
    (hpath : a.frame.path = .area b) (hi : i < a.frame.length) (hp : p = b + i) :
    ∃ done, a.driven ≤ done ∧ (s.raceWrite p v).engine =
      .attempt { a with driven := done, sent := if i < done then a.sent else a.sent.set i v } := by
  have sent : a.sends p = some i := by
    unfold Attempt.sends
    simp only [hk, hpath]
    rw [if_pos (by omega), hp, Nat.add_sub_cancel_left]
  refine ⟨max a.driven (Config.bytesDriven s.freeCount), Nat.le_max_left _ _, ?_⟩
  unfold State.raceWrite
  simp only [he, sent]

end

/-- Settles O34: the race of the write, behind a first target check that is not due. -/
theorem writeRacesTheFrameByteByByte : Obligations.WriteRacesTheFrameByteByByte := by
  intro s v a b i hp he hk hpath hi hptr hb
  have check : s.firstCheck = s := firstCheck_of_ne (by simp [he])
  have hdata : 0x0D00 ≤ s.tmPtr.toNat := by
    rw [hptr]
    exact Nat.le_trans hb (Nat.le_add_right b i)
  have taken : s.firstCheck.takesWrite s.tmPtr = true := (takesWrite_iff (placeOf_dataByte hdata)).mpr ⟨rfl, rfl⟩
  have put : s.byteTaken v = (s.writeMem s.tmPtr.toNat [v]).raceWrite s.tmPtr.toNat v := by
    rw [State.byteTaken, check, putHostByte_mem v (by omega)]
  obtain ⟨done, driven, engine⟩ :=
    engine_raceWrite_of_sent (s := s.writeMem s.tmPtr.toNat [v]) (v := v) he hk hpath hi hptr
  refine ⟨_, done, exec_tmDataWrite_taken hp taken, driven, ?_, ?_⟩
  · show (s.byteTaken v).engine = _
    rw [put]
    exact engine
  · show (s.byteTaken v).memByte _ = _
    rw [put, raceWrite_frame]
    rfl

/-- Settles O33: the read by its definition, the taken write by the host byte it puts and its race, the discarded one by
the guard. -/
theorem tableDataPortMovesOneByte : Obligations.TableDataPortMovesOneByte := by
  intro s v hp w p
  have moves : w = s.withWorkOf w := State.WorkMoves.firstCheck s
  have guarded : w.guardCause = s.guardCause ∧ w.guardAddr = s.guardAddr := by
    rw [moves]
    exact ⟨rfl, rfl⟩
  refine ⟨?_, fun taken hm => ?_, fun discarded => ?_⟩
  · show Host.Outcome.next (s.windowRead 0x0A) = _
    rw [State.windowRead, if_pos hp]
    rfl
  · let u := w.putHostByte s.tmPtr v
    have raced : s.byteTaken v = { u with
        engine := (s.byteTaken v).engine, freeCount := (s.byteTaken v).freeCount } := raceWrite_frame u _ v
    have bytes (b : BitVec 13) : ({ s.byteTaken v with tmPtr := s.tmPtr + 1 } : State).tableByte b = u.tableByte b := by
      rw [raced]
      rfl
    have put : u = { w with
        targets := u.targets, channels := u.channels, duties := u.duties, mem := u.mem } := putHostByte_frame w _ v
    refine ⟨_, exec_tmDataWrite_taken hp taken, ?_, fun b hb => ?_, ?_, fun hmem => ?_, fun hrec => ?_,
      fun unsent => ?_⟩
    · rw [bytes]
      exact tableByte_putHostByte_same v taken hm
    · rw [bytes]
      exact tableByte_putHostByte_ne v hb
    · rw [raced, put]
    · rw [raced, show u = _ from putHostByte_mem v hmem]
      exact ⟨rfl, rfl, rfl, rfl⟩
    · rw [raced]
      exact putHostByte_record (s := w) v hrec
    · have engine : u.engine = w.engine := by rw [put]
      have same : s.byteTaken v = u := raceWrite_of_not_sent fun a b he => unsent a b (engine.symm.trans he)
      rw [same, put]
      exact ⟨rfl, rfl⟩
  · rw [exec_tmDataWrite_discarded hp discarded, State.guardWrite]
    show Host.Outcome.next { w with
      tmPtr := s.tmPtr + 1, guardCause := true, guardAddr := if w.guardCause then w.guardAddr else s.tmPtr } = _
    rw [guarded.1, guarded.2]

end Sys2Proof.Machine
end

/-!
SUPPORT. Full reset, the closed window, the clear and the RESET broadcast (R67 to R69, R147 to R149, R188).
-/

section
namespace Sys2Proof.Machine

open Sys2Proof

/-! ## FULL_RESET (R67, R148, R188) -/

theorem target_of_targets {s t : State} (h : t.targets = s.targets) (k : Fin 16) : t.target k = s.target k := by
  rw [State.target, State.target, h]

@[simp] theorem target_mapDuties (s : State) (f : DutyRec → DutyRec) (k : Fin 16) :
    (s.mapDuties f).target k = s.target k :=
  target_of_targets (by rw [mapDuties_frame]) k

@[simp] theorem target_mapChannels (s : State) (f : ChannelRec → ChannelRec) (k : Fin 16) :
    (s.mapChannels f).target k = s.target k :=
  target_of_targets (by rw [mapChannels_frame]) k

theorem target_fullReset (s : State) (k : Fin 16) : s.fullReset.target k = (s.target k).clearNotices := by
  unfold State.fullReset
  simp only [target_mapDuties, target_mapChannels, target_mapTargets]
  rfl

/-- A notice set is empty where no record holds a cause (R184). -/
theorem noticeSet_eq_nil {s : State} (ht : ∀ k, (s.target k).notices = 0) (hc : ∀ c, (s.channel c).notices = 0)
    (hd : ∀ n, (s.duty n).notices = 0) : s.noticeSet = [] := by
  refine List.filter_eq_nil_iff.mpr fun m _ => ?_
  unfold State.memberCauses
  split_ifs <;> simp [ht, hc, hd]

theorem TargetRec.notices_clearNotices (r : TargetRec) : r.clearNotices.notices = 0 := by
  show flagBit false 0 = 0
  rfl

theorem ChannelRec.notices_clearNotices (r : ChannelRec) : r.clearNotices.notices = 0 := by
  show flagBit false 0 ||| flagBit false 1 ||| flagBit false 2 = 0
  decide

theorem DutyRec.notices_clearNotices (d : DutyRec) : d.clearNotices.notices = 0 := by
  show flagBit false 0 ||| flagBit false 1 ||| flagBit false 2 ||| flagBit false 3 = 0
  decide

/-- Settles O4: the frame of a full reset, and no record left with a cause. -/
theorem fullResetAbandonsAndRestores : Obligations.FullResetAbandonsAndRestores := by
  intro s
  have targets := target_fullReset s
  have channels := channel_fullReset s
  have duties := duty_fullReset s
  have empty : s.fullReset.noticeSet = [] :=
    noticeSet_eq_nil (fun k => by rw [targets, TargetRec.notices_clearNotices])
      (fun c => by rw [channels, ChannelRec.notices_clearNotices])
      (fun n => by rw [duties, DutyRec.notices_clearNotices])
  exact ⟨s.fullReset, rfl, fullReset_frame s, empty, targets, channels, duties⟩

/-! ## Until the clear ends (R68) -/

/-- STATUS shows ready exactly while the part runs (R179). -/
theorem status_ready (s : State) : s.status.getLsbD 0 = (s.phase == .running) := by
  have ready (p u : Bool) (b : BusState) :
      (flagBit p 0 ||| flagBit u 1 ||| (b.code <<< 2)).getLsbD 0 = p := by
    cases p <;> cases u <;> cases b <;> rfl
  exact ready _ _ _

/-- With no cause enabled INT# is released (R187). -/
theorem intLow_of_disabled {s : State} (h : s.intEnable = 0) : s.intLow = false := by
  simp [State.intLow, h]

theorem readInReset_eq (s : State) (offset : BitVec 6) : s.readInReset offset = { s with
    hostData := if offset = 0x00 then 0x4A else if offset = 0x01 then 0x63
      else if offset = 0x02 then s.status else 0 } := by
  have at_iff (k : BitVec 6) : offset = k ↔ offset.toNat = k.toNat := BitVec.toNat_inj.symm
  have low : lowByte Config.idValue = 0x4A := by decide
  have high : highByte Config.idValue = 0x63 := by decide
  simp only [at_iff]
  unfold State.readInReset
  split <;> simp_all [State.answer]

/-- Settles O5: every access, command and edge of a part that does not run falls back on R68. -/
theorem windowIsClosedUntilTheClearEnds : Obligations.WindowIsClosedUntilTheClearEnds := by
  intro s hp
  have ignored (code : Byte) : s.writeCommand code = s := if_pos hp
  refine ⟨fun offset v => ?_, fun offset => ?_, ?_, fun code => ?_, intLow_of_disabled, fun k level => ?_⟩
  · exact congrArg Host.Outcome.next (if_neg hp : s.windowWrite offset v = s)
  · exact congrArg Host.Outcome.next ((if_neg hp : s.windowRead offset = _).trans (readInReset_eq s offset))
  · rw [status_ready]
    simpa using hp
  · exact ⟨congrArg Host.Outcome.next (ignored code), congrArg Host.Outcome.next (ignored code)⟩
  · exact if_neg fun h => hp h.1

/-! ## From the release to the arbiter's gap (R69, R74, R149) -/

theorem records_cleared (s : State) (lines : Byte) :
    (∀ k, (s.cleared lines).target k = .zero) ∧ (∀ c, (s.cleared lines).channel c = .zero) ∧
      ∀ n, (s.cleared lines).duty n = .zero :=
  ⟨fun _ => Vector.getElem_replicate .., fun _ => Vector.getElem_replicate .., fun _ => Vector.getElem_replicate ..⟩

theorem TargetRec.byte_zero (off : Nat) : TargetRec.zero.byte off = 0 := by
  unfold TargetRec.byte
  split <;> rfl

theorem ChannelRec.byte_zero (off : Nat) : ChannelRec.zero.byte off = 0 := by
  unfold ChannelRec.byte
  split <;> rfl

theorem DutyRec.byte_zero (off : Nat) : DutyRec.zero.byte off = 0 := by
  unfold DutyRec.byte
  split <;> rfl

/-- After the clear every byte of table memory reads 0 (R69). -/
theorem tableByte_cleared (s : State) (lines : Byte) (a : BitVec 13) : (s.cleared lines).tableByte a = 0 := by
  obtain ⟨targets, channels, duties⟩ := records_cleared s lines
  rcases placeOf_cases a with ⟨t, off, h⟩ | ⟨c, off, h⟩ | ⟨n, off, h⟩ | h
  · rw [tableByte_target h, targets, TargetRec.byte_zero]
  · rw [tableByte_channel h, channels, ChannelRec.byte_zero]
  · rw [tableByte_duty h, duties, DutyRec.byte_zero]
  · exact tableByte_mem h

/-- After the clear no record holds a notice and no request is complete, so READY is the one cause (R69, R186). -/
theorem intCause_cleared (s : State) (lines : Byte) : (s.cleared lines).intCause = 0x0040 := by
  obtain ⟨targets, channels, duties⟩ := records_cleared s lines
  have quiet : (s.cleared lines).noticePresent = false := by
    simp only [State.noticePresent, targets, channels, duties]
    rfl
  rw [State.intCause, quiet]
  show (flagBit false 0 ||| flagBit false 1 ||| flagBit false 2 ||| flagBit false 3 ||| flagBit false 4
    ||| flagBit false 5 ||| flagBit true 6).setWidth 16 = 0x0040
  decide

/-- After the clear STATUS shows ready, no command pending and bus state ACTIVE (R179). -/
theorem status_cleared (s : State) (lines : Byte) : (s.cleared lines).status = 0x01 := by
  show flagBit true 0 ||| flagBit false 1 ||| (BusState.active.code <<< 2) = 0x01
  decide

/-- The RESET broadcast's header in odd parity (R71, R147). -/
theorem headerOnBus_reset (s : State) :
    (s.startBroadcast .reset).headerOnBus = [⟨0xA0, true⟩, ⟨0x00, true⟩, ⟨0x00, true⟩] := by
  show Broadcast.reset.header.map driven = _
  decide

/-- Settles O6, row by row. -/
theorem releaseClearAndResetBroadcast : Obligations.ReleaseClearAndResetBroadcast := by
  intro s
  refine ⟨fun h => if_pos h, fun h => if_neg h, fun lines h => ?_, fun lines h => if_neg h, fun h => ?_,
    fun h => if_pos h, fun h => if_neg h, fun h => if_neg h⟩
  · obtain ⟨targets, channels, duties⟩ := records_cleared s lines
    exact ⟨s.cleared lines, if_pos h, status_cleared s lines, intCause_cleared s lines, tableByte_cleared s lines, rfl,
      rfl, rfl, rfl, rfl, rfl, rfl, rfl, rfl,
      fun k => by rw [targets]; exact ⟨rfl, rfl, rfl⟩, fun c => by rw [channels]; rfl, fun n => by rw [duties]; rfl⟩
  · exact ⟨s.startBroadcast .reset, if_pos h, rfl, headerOnBus_reset s⟩

end Sys2Proof.Machine
end

/-!
SUPPORT. The headers of frames and broadcasts (R71) as a conforming target hears them (R132, R143, R147), and the end of
a request's frame (R109).
-/

section
namespace Sys2Proof.Machine

open Sys2Proof

/-! ## Headers (R71) -/

/-- Header byte 0: the kind code in the high nibble and the target in the low one. -/
theorem kindByte_eq (k : FrameKind) (t : Fin 16) :
    (k.code <<< 4) ||| BitVec.ofNat 8 t.val =
      BitVec.ofNat 8 (16 * k.code.toNat + t.val) := by
  cases k <;> revert t <;> decide

/-- Header byte 2: LENGTH - 1 with SEQ at bit 4. -/
theorem lengthByte_eq {n : Nat} (h : n ≤ 16) (b : Bool) :
    BitVec.ofNat 8 (n - 1) ||| (if b then 0x10 else 0) = BitVec.ofNat 8 (n - 1 + if b then 16 else 0) := by
  interval_cases n <;> cases b <;> rfl

/-- The SEQ bit stands alone at bit 4 of header byte 2. -/
theorem seqOfLengthByte {n : Nat} (h : n ≤ 16) (b : Bool) :
    (BitVec.ofNat 8 (n - 1) ||| (if b then 0x10 else 0)).getLsbD 4 = b := by
  interval_cases n <;> cases b <;> rfl

@[simp] theorem sd_driven (b : Byte) : (driven b).sd = b := rfl

theorem sampleOdd_driven (b : Byte) : sampleOdd (driven b) = true := by
  have odd (n : Nat) : ((n + if (n % 2 == 0) = true then 1 else 0) % 2 == 1) = true := by
    rcases Nat.mod_two_eq_zero_or_one n with h | h <;> simp [h]
    omega
  exact odd _

/-! ## What a conforming target hears (R132, R143, R147) -/

section
variable (d : Device) (dataOdd accepts : Bool)

/-- The kind and the target that a header byte 0 names. -/
theorem kindByte_fields (k : FrameKind) (t : Fin 16) :
    ((k.code <<< 4) ||| BitVec.ofNat 8 t.val) >>> 4 = k.code ∧
      (((k.code <<< 4) ||| BitVec.ofNat 8 t.val) &&& 0x0F).toNat = t.val := by
  cases k <;> revert t <;> decide

/-- A target hears no frame in its low-power state; else it takes one to itself by its kind. -/
theorem hear_frame {f : Frame} (seq : Bool) (ht : f.target = d.number) (hl : f.length ≤ 16) :
    d.hear ((f.header seq).map driven) dataOdd accepts =
      if d.asleep then ⟨d, .silent, false⟩
      else match f.kind with
        | .write => d.write seq dataOdd accepts
        | .read => ⟨d, if accepts then .ack else .nak, false⟩
        | .sync => ⟨{ d with last := !seq }, .ack, false⟩ := by
  obtain ⟨kind, number⟩ := kindByte_fields f.kind d.number
  have bit := seqOfLengthByte hl (f.kind.seqBit seq)
  simp only [Device.hear, Frame.header, List.map_cons, List.map_nil, List.all_cons, List.all_nil, sampleOdd_driven,
    sd_driven, kind, number, bit, ht]
  cases f.kind <;> cases d.asleep <;> simp [FrameKind.code, Broadcast.code, FrameKind.seqBit]

theorem hear_broadcast (b : Broadcast) :
    d.hear (b.header.map driven) dataOdd accepts = match b with
      | .quiet => ⟨{ d with asleep := true }, .silent, false⟩
      | .wake => ⟨{ d with asleep := false }, .silent, false⟩
      | .reset => ⟨{ d with asleep := false, last := Config.lastAfterReset d.number.val d.last }, .silent, false⟩ := by
  cases b <;> rfl

end

/-! ## How often a WRITE is carried out (R143) -/

theorem write_cases (d : Device) (seq dataOdd accepts : Bool) :
    ((d.write seq dataOdd accepts).carriedOut = false ∧ (d.write seq dataOdd accepts).device = d) ∨
      (d.write seq dataOdd accepts).device.last = seq := by
  unfold Device.write
  split
  · exact .inl ⟨rfl, rfl⟩
  · split
    · exact .inl ⟨rfl, rfl⟩
    · split <;> exact .inr rfl

theorem write_duplicate {d : Device} {seq : Bool} (dataOdd accepts : Bool) (h : d.last = seq) :
    (d.write seq dataOdd accepts).carriedOut = false ∧ (d.write seq dataOdd accepts).device = d := by
  unfold Device.write
  split
  · exact ⟨rfl, rfl⟩
  · rw [if_pos h.symm]
    exact ⟨rfl, rfl⟩

/-- Once L equals the sequence bit, no attempt with that bit is carried out. -/
theorem carriedOutOver_duplicate {d : Device} {seq : Bool} (accepts : Bool) (h : d.last = seq)
    (attempts : List (Bool × Bool)) : d.carriedOutOver seq accepts attempts = 0 := by
  induction attempts with
  | nil => rfl
  | cons attempt rest ih =>
    obtain ⟨heard, dataOdd⟩ := attempt
    obtain ⟨notCarried, same⟩ := write_duplicate dataOdd accepts h
    cases heard <;> simp [Device.carriedOutOver, notCarried, same, ih]

/-- A WRITE sent again and again is carried out at most once (R143). -/
theorem carriedOutOver_le_one (d : Device) (seq accepts : Bool) (attempts : List (Bool × Bool)) :
    d.carriedOutOver seq accepts attempts ≤ 1 := by
  induction attempts with
  | nil => exact Nat.zero_le 1
  | cons attempt rest ih =>
    obtain ⟨heard, dataOdd⟩ := attempt
    cases heard with
    | false => exact ih
    | true =>
      show (if (d.write seq dataOdd accepts).carriedOut then 1 else 0)
        + (d.write seq dataOdd accepts).device.carriedOutOver seq accepts rest ≤ 1
      rcases write_cases d seq dataOdd accepts with ⟨notCarried, same⟩ | taken
      · rw [notCarried, same]
        simpa using ih
      · rw [carriedOutOver_duplicate accepts taken]
        split <;> decide

/-- Settles O54: at most once by induction over the attempts, and what each header does to the target that hears it. -/
theorem writeIsCarriedOutAtMostOnceAndSyncMakesItNew :
    Obligations.WriteIsCarriedOutAtMostOnceAndSyncMakesItNew := by
  refine ⟨carriedOutOver_le_one, fun d seq offset length path _ hl => ?_⟩
  intro write heard first broadcast
  have frame (e : Device) (he : e.number = d.number) : e.hear ((write.header seq).map driven) true true =
      if e.asleep then ⟨e, .silent, false⟩ else e.write seq true true :=
    hear_frame e true true seq (f := write) he.symm hl
  refine ⟨fun awake => ?_, fun asleep => ?_, hear_broadcast d true true .quiet, hear_broadcast d true true .wake,
    _, hear_broadcast d true true .reset⟩
  · have sync : heard = ⟨{ d with last := !seq }, .ack, false⟩ :=
      (hear_frame d true true seq (f := syncFrame d.number) rfl (Nat.zero_le 16)).trans (if_neg (by simp [awake]))
    have new : first = ⟨{ d with last := seq }, .ack, true⟩ := by
      show heard.device.hear _ true true = _
      rw [sync]
      exact (frame { d with last := !seq } rfl).trans (by simp [awake, Device.write])
    have again : first.device.hear ((write.header seq).map driven) true true =
        ⟨{ d with last := seq }, .ack, false⟩ := by
      rw [new]
      exact (frame { d with last := seq } rfl).trans (by simp [awake, Device.write])
    rw [sync, again, new]
    exact ⟨rfl, rfl, rfl, rfl, rfl, rfl⟩
  · rw [frame d rfl, if_pos asleep]

/-! ## The end of a request (R109) -/

section
variable {s : State} {a : Attempt} {r : Request} {o : FrameOutcome} {data : List Sample}

theorem requesterOutcome_of_host (hg : s.grant = some .host) (hi : s.inFlight = some r) :
    s.requesterOutcome a o data = (s.storeReceived a.frame o data).requestFrameEnd r a.frame o a.count := by
  unfold State.requesterOutcome
  simp only [hg, hi]

theorem mem_completeOffline (s : State) (t : Fin 16) : (s.completeOffline t).mem = s.mem := by
  rcases completeOffline_cases s t with ⟨_, e⟩ | ⟨_, e⟩ <;> rw [e]
  rfl

theorem slotsFree_completeOffline (s : State) (t : Fin 16) : (s.completeOffline t).slotsFree = s.slotsFree := by
  rcases completeOffline_cases s t with ⟨_, e⟩ | ⟨_, e⟩ <;> rw [e]
  rfl

/-- A READ that ended OK puts its bytes into the data area (R66). -/
theorem storeReceived_area {f : Frame} {b : Nat} (hk : f.kind = .read) (ho : o = .ok) (hp : f.path = .area b) :
    s.storeReceived f o data = s.writeMem b (receivedBytes f data) := by
  unfold State.storeReceived
  rw [if_pos ⟨hk, ho⟩]
  simp only [hp]

/-- One completion record takes the slot of the request that ends. -/
theorem slotsFree_requestEnd (c : Completion) (h : s.inFlight = some r) : (s.requestEnd c).slotsFree = s.slotsFree :=
  congrArg (8 - ·) (slotsHeld_requestEnd c h)

end

/-- Settles O52: an OK SYNC leaves the request in flight, and every other outcome of its frame ends it. -/
theorem requestEndsInOneCompletion : Obligations.RequestEndsInOneCompletion := by
  intro s a r c o data he hg hi hr hc hl v
  let w := v.storeReceived a.frame o data
  have ended : exec c s = .next ((w.requestFrameEnd r a.frame o a.count).completeOffline a.frame.target).settle := by
    rw [exec_of_endsBy he hc, attemptOver_of_last hl hr, requesterOutcome_of_host (s := v) hg hi]
  refine ⟨fun ⟨ho, hk⟩ => ?_, fun h => ?_⟩
  · have goesOn : w.requestFrameEnd r a.frame o a.count = { v with engine := .interGap 1 } := by
      show State.requestFrameEnd (v.storeReceived a.frame o data) _ _ _ _ = _
      rw [storeReceived_of_not data (.inl (by simp [hk])), State.requestFrameEnd, if_pos ⟨ho, hk⟩]
      rfl
    rw [ended, goesOn]
  · have ends : w.requestFrameEnd r a.frame o a.count = w.requestEnd (r.complete o a.count) := if_neg h
    have stored : w = { v with mem := w.mem } := storeReceived_frame v a.frame o data
    let u := (w.requestEnd (r.complete o a.count)).completeOffline a.frame.target
    have mem : u.mem = w.mem := mem_completeOffline _ _
    have slots : u.slotsFree = w.slotsFree :=
      (slotsFree_completeOffline _ _).trans (slotsFree_requestEnd (r := r) _ (by rw [stored]; exact hi))
    refine ⟨u, ended.trans (by rw [ends]), ?_, ?_, fun b hk ho hpath => ?_, fun hn => ?_⟩
    · rw [slots, stored]
      rfl
    · rw [mem]
      show (w.requestEnd _).completeOffline _ = _
      rw [stored]
      rfl
    · rw [mem]
      show (v.storeReceived a.frame o data).mem = _
      rw [storeReceived_area hk ho hpath]
      rfl
    · rw [mem]
      show (v.storeReceived a.frame o data).mem = _
      rw [storeReceived_of_not data hn]
      rfl

end Sys2Proof.Machine
end

/-!
SUPPORT. The bus cycles of an attempt, phase by phase, and their number (R132 to R140), the wait cycles of a slot
(R139), and what the samples of a status cycle and of a READ's slots decode to (R72, R134, R141).
-/

section
namespace Sys2Proof.Machine

open Sys2Proof

section
variable (a : Attempt) (header : List Byte) (low : Nat → Nat)

/-! ## Phases (R133 to R135) -/

theorem handshakes_iff : a.handshakes = true ↔ a.frame.kind ≠ .sync ∧ a.profile = 1 := by
  simp [Attempt.handshakes]

/-- In a data frame SWAIT# makes a HANDSHAKE target's slots wait and no other's (R136, R138, R139). -/
theorem waits_eq (h : a.frame.kind ≠ .sync) (k : Nat) : a.waits low k = if a.profile = 1 then low k else 0 := by
  simp only [Attempt.waits, handshakes_iff, h, ne_eq, not_false_eq_true, true_and]

theorem waits_of_not_handshake (h : a.frame.kind = .sync ∨ a.profile ≠ 1) (k : Nat) : a.waits low k = 0 :=
  if_neg fun handshakes => by
    obtain ⟨data, profile⟩ := (handshakes_iff a).mp handshakes
    exact h.elim data fun other => other profile

theorem paceCycles_eq (k : Nat) :
    a.paceCycles k = List.replicate (if k = 0 then 0 else a.pace.toNat) ⟨.pace, none⟩ := by
  unfold Attempt.paceCycles
  split <;> rfl

theorem slots_eq_flatMap (n : Nat) : a.slots low n = (List.range n).flatMap (a.slotCycles low) := by
  induction n with
  | zero => rfl
  | succ n ih => simp [Attempt.slots, ih, List.range_succ]

theorem opening_eq : a.opening header = headerCycles header
    ++ List.replicate (if a.frame.kind = .read then 1 else 0) ⟨.turnaround, none⟩
    ++ List.replicate a.settleCycles.toNat ⟨.settle, none⟩ := by
  unfold Attempt.opening
  split <;> rfl

theorem run_write (h : a.frame.kind = .write) : a.run header low =
    a.opening header ++ a.slots low a.frame.length ++ [turnaround, ⟨.status, none⟩] := by
  rw [Attempt.run, h]

theorem run_read (h : a.frame.kind = .read) : a.run header low =
    a.opening header ++ a.slots low a.frame.length ++ [⟨.status, none⟩] := by
  rw [Attempt.run, h]

theorem run_sync (h : a.frame.kind = .sync) : a.run header low =
    headerCycles header ++ [turnaround, ⟨.status, none⟩] := by
  rw [Attempt.run, h]

/-! ## Lengths (R137) -/

theorem waited_succ (n : Nat) : a.waited low (n + 1) = a.waited low n + a.waits low n := by
  simp [Attempt.waited, List.range_succ]

/-- The slots up to slot `n` with the pace ahead of that slot: one cycle a slot, PACE between two, and the waits. -/
theorem length_slots_paced (n : Nat) :
    (a.slots low n ++ a.paceCycles n).length = n + a.pace.toNat * n + a.waited low n := by
  induction n with
  | zero => rfl
  | succ n ih =>
    simp only [Attempt.slots, Attempt.slotCycles, paceCycles_eq, List.length_append, List.length_replicate,
      List.length_singleton, waited_succ, Nat.mul_succ] at ih ⊢
    simp only [Nat.succ_ne_zero, if_false]
    omega

theorem length_slots (n : Nat) : (a.slots low n).length = n + a.pace.toNat * (n - 1) + a.waited low n := by
  cases n with
  | zero => rfl
  | succ n =>
    have before := length_slots_paced a low n
    simp only [List.length_append] at before
    simp only [Attempt.slots, Attempt.slotCycles, List.length_append, List.length_replicate, List.length_singleton,
      waited_succ, Nat.add_sub_cancel]
    omega

theorem length_opening (h : header.length = 3) :
    (a.opening header).length = 3 + (if a.frame.kind = .read then 1 else 0) + a.settleCycles.toNat := by
  simp [opening_eq, headerCycles, h, Nat.add_assoc]

theorem length_run_sync (hh : header.length = 3) (h : a.frame.kind = .sync) : (a.run header low).length = 5 := by
  rw [run_sync a header low h]
  simp [headerCycles, hh]

/-- An attempt that moves data takes the cycles of R137. -/
theorem length_run (hh : header.length = 3) (h : a.frame.kind ≠ .sync) : (a.run header low).length =
    5 + a.settleCycles.toNat + a.frame.length + a.pace.toNat * (a.frame.length - 1) + a.waited low a.frame.length := by
  cases hk : a.frame.kind with
  | write =>
    simp only [run_write a header low hk, List.length_append, length_opening a header hh, length_slots, hk,
      List.length_cons, List.length_nil, reduceCtorEq, if_false]
    omega
  | read =>
    simp only [run_read a header low hk, List.length_append, length_opening a header hh, length_slots, hk,
      List.length_cons, List.length_nil, if_true]
    omega
  | sync => exact absurd hk h

theorem cycles_eq_length_run (hh : header.length = 3) : a.cycles low = (a.run header low).length := by
  unfold Attempt.cycles
  split
  · rw [length_run_sync a header low hh ‹_›]
  · rw [length_run a header low hh ‹_›]

theorem length_runToTimeout (hh : header.length = 3) (slot : Nat) : (a.runToTimeout header low slot).length =
    3 + (if a.frame.kind = .read then 1 else 0) + a.settleCycles.toNat + slot + a.pace.toNat * slot + a.waited low slot
      + a.readyLimit.toNat + 1 := by
  have before := length_slots_paced a low slot
  simp only [List.length_append] at before
  simp only [Attempt.runToTimeout, List.length_append, List.length_replicate, length_opening a header hh]
  omega

theorem timeoutCycles_eq_length (hh : header.length = 3) (slot : Nat) :
    a.timeoutCycles low slot = (a.runToTimeout header low slot).length := by
  rw [length_runToTimeout a header low hh, Attempt.timeoutCycles]
  omega

/-! ## The slot of a ready timeout (R139) -/

theorem busCycles_of_timeout {slot : Nat} (hs : slot < a.frame.length) (late : a.readyLimit.toNat < a.waits low slot)
    (first : ∀ k, k < slot → a.waits low k ≤ a.readyLimit.toNat) :
    a.busCycles header low = a.runToTimeout header low slot := by
  have found : a.timeoutSlot low = some slot :=
    List.find?_range_eq_some.mpr ⟨by simpa using late, List.mem_range.mpr hs, fun k hk => by simpa using first k hk⟩
  rw [Attempt.busCycles, found]

theorem busCycles_of_no_timeout (h : ∀ k, k < a.frame.length → a.waits low k ≤ a.readyLimit.toNat) :
    a.busCycles header low = a.run header low := by
  have none : a.timeoutSlot low = none :=
    List.find?_range_eq_none.mpr fun k hk => by simpa using h k hk
  rw [Attempt.busCycles, none]

/-! ## The cycles that move data (R133) -/

/-- What the part drives in the cycles of a run that move a byte. -/
def dataDrives (cycles : List BusCycle) : List (Option Sample) :=
  (cycles.filter (fun x => x.phase == .data)).map BusCycle.part

theorem dataDrives_append (xs ys : List BusCycle) : dataDrives (xs ++ ys) = dataDrives xs ++ dataDrives ys := by
  simp [dataDrives]

theorem dataDrives_replicate {p : Phase} (h : p ≠ .data) (n : Nat) (x : Option Sample) :
    dataDrives (List.replicate n ⟨p, x⟩) = [] := by
  simp [dataDrives, h]

theorem dataDrives_headerCycles : dataDrives (headerCycles header) = [] := by
  simp [dataDrives, headerCycles, List.filter_map]

theorem dataDrives_slots (n : Nat) : dataDrives (a.slots low n) = (List.range n).map a.slotDrive := by
  induction n with
  | zero => rfl
  | succ n ih =>
    simp only [Attempt.slots, Attempt.slotCycles, paceCycles_eq, dataDrives_append, ih,
      dataDrives_replicate (p := .pace) (by decide), dataDrives_replicate (p := .wait) (by decide), List.range_succ,
      List.map_append, List.nil_append]
    rfl

theorem dataDrives_opening : dataDrives (a.opening header) = [] := by
  simp only [opening_eq, dataDrives_append, dataDrives_headerCycles,
    dataDrives_replicate (p := .turnaround) (by decide), dataDrives_replicate (p := .settle) (by decide),
    List.nil_append]

/-- A WRITE sends its bytes in order, each in odd parity. -/
theorem dataDrives_run_write (hk : a.frame.kind = .write) (hl : a.sent.length = a.frame.length) :
    dataDrives (a.run header low) = a.sent.map (fun b => some (driven b)) := by
  have tail : dataDrives [turnaround, ⟨.status, none⟩] = [] := by decide
  rw [run_write a header low hk, dataDrives_append, dataDrives_append, dataDrives_opening, dataDrives_slots, tail, ← hl]
  refine List.ext_getElem (by simp) fun k h1 h2 => ?_
  have inside : k < a.sent.length := by simpa using h2
  simp [Attempt.slotDrive, hk, inside]

end

/-! ## Wait cycles of a slot (R139) -/

theorem slotWaits_replicate (limit n : Nat) (rest : List Bool) :
    slotWaits limit (List.replicate n false ++ true :: rest) = if n ≤ limit then some n else none := by
  induction n generalizing limit with
  | zero => cases limit <;> rfl
  | succ n ih =>
    cases limit with
    | zero => rfl
    | succ limit =>
      show (slotWaits limit (List.replicate n false ++ true :: rest)).map (· + 1) = _
      rw [ih]
      by_cases h : n ≤ limit <;> simp [h]

/-! ## Samples decoded (R72, R134, R138, R141) -/

/-- Every byte of a READ's slots, and no byte of another frame, has to arrive in odd parity (R134). -/
def Frame.arrivesClean (f : Frame) (data : List Sample) : Prop :=
  f.kind = .read → ∀ y ∈ slotSamples f.length data, sampleOdd y = true

theorem attemptOutcome_of_clean {f : Frame} {data : List Sample} (x : Sample) (h : f.arrivesClean data) :
    attemptOutcome f x data = decodeStatus x := by
  refine if_neg fun ⟨hk, even⟩ => ?_
  obtain ⟨y, hy, bad⟩ := List.any_eq_true.mp even
  simp [h hk y hy] at bad

theorem attemptOutcome_of_not_clean {f : Frame} {data : List Sample} (x : Sample) (h : ¬f.arrivesClean data) :
    attemptOutcome f x data = .parity := by
  simp only [Frame.arrivesClean, Classical.not_imp, not_forall] at h
  obtain ⟨hk, y, hy, bad⟩ := h
  exact if_pos ⟨hk, List.any_eq_true.mpr ⟨y, hy, by simpa using bad⟩⟩

theorem decodeStatus_even {x : Sample} (h : sampleOdd x = false) : decodeStatus x = .parity :=
  if_neg (by simp [h])

theorem decodeStatus_odd {x : Sample} (h : sampleOdd x = true) : decodeStatus x =
    if x.sd = 0x5A then .ok else if x.sd = 0x3C then .nak else if x.sd = 0x66 then .parity else .noResponse :=
  if_pos h

/-! ## What a READ stores (R40, R66) -/

theorem storeReceived_record {s : State} {f : Frame} {o : FrameOutcome} {i : Nat} (data : List Sample)
    (hk : f.kind = .read) (ho : o = .ok) (hp : f.path = .record i) : s.storeReceived f o data =
      if s.transactionKind i = .readCapture then s.writeMem (transactionData i) (receivedBytes f data) else s := by
  unfold State.storeReceived
  rw [if_pos ⟨hk, ho⟩]
  simp only [hp]

/-! ## The header on the bus (R71, R132, R147) -/

theorem header_eq (f : Frame) (seq : Bool) (h : f.length ≤ 16) : f.header seq =
    [BitVec.ofNat 8 (16 * f.kind.code.toNat + f.target.val), f.offset,
      BitVec.ofNat 8 (f.length - 1 + if f.kind.seqBit seq then 16 else 0)] := by
  rw [Frame.header, kindByte_eq, lengthByte_eq h]

theorem header_syncFrame (t : Fin 16) (seq : Bool) :
    (syncFrame t).header seq = [BitVec.ofNat 8 (0x30 + t.val), 0, if seq then 0 else 0x10] := by
  cases seq <;> revert t <;> decide

theorem bus_of_attempt {s : State} {a : Attempt} (he : s.engine = .attempt a) (low : Nat → Nat) :
    let header := a.frame.header (s.target a.frame.target).seq
    s.sselLow = true ∧ s.headerOnBus = header.map driven ∧ s.cyclesOnBus low = a.busCycles header low := by
  simp only [State.sselLow, State.headerOnBus, State.cyclesOnBus, he, and_self]

theorem bus_of_broadcast {s : State} {b : Broadcast} (he : s.engine = .broadcast b) (low : Nat → Nat) :
    s.sselLow = true ∧ s.headerOnBus = b.header.map driven ∧ s.cyclesOnBus low = headerCycles b.header := by
  simp only [State.sselLow, State.headerOnBus, State.cyclesOnBus, he, and_self]

theorem bus_of_neither {s : State} (ha : ∀ a, s.engine ≠ .attempt a) (hb : ∀ b, s.engine ≠ .broadcast b)
    (low : Nat → Nat) : s.sselLow = false ∧ s.headerOnBus = [] ∧ s.cyclesOnBus low = [] := by
  unfold State.sselLow State.headerOnBus State.cyclesOnBus
  cases he : s.engine with
  | attempt a => exact absurd he (ha a)
  | broadcast b => exact absurd he (hb b)
  | _ => exact ⟨rfl, rfl, rfl⟩

/-- Settles O44: the headers, what the bus carries, the phases with their lengths and the slot of a ready timeout, the
waits of a slot, the decoding, and what a READ stores. -/
theorem attemptsRunTheirPhasesAndAreDecoded : Obligations.AttemptsRunTheirPhasesAndAreDecoded := by
  refine ⟨?_, header_syncFrame, by decide, fun s low => ⟨fun a he => bus_of_attempt he low,
    fun b he => bus_of_broadcast he low, fun ha hb => bus_of_neither ha hb low⟩, ?_, slotWaits_replicate, ?_, ?_⟩
  · intro f seq hl
    rw [header_eq f seq hl]
    cases f.kind <;> rfl
  · intro a header low hh run idle drive w pace slots head opening waited
    have opens : a.opening header = opening := opening_eq a header
    have paced (k : Nat) : a.paceCycles k = pace k := paceCycles_eq a k
    have slotted (hk : a.frame.kind ≠ .sync) (n : Nat) : a.slots low n = slots n := by
      rw [slots_eq_flatMap]
      refine congrArg (List.flatMap · _) (funext fun k => ?_)
      show a.paceCycles k ++ List.replicate (a.waits low k) _ ++ _ = _
      rw [paced, waits_eq a low hk]
      rfl
    have waitedFor (hk : a.frame.kind ≠ .sync) (n : Nat) : a.waited low n = waited n :=
      congrArg (fun f => ((List.range n).map f).sum) (funext (waits_eq a low hk))
    refine ⟨fun hk => ?_, fun hk => ?_, fun hk => ⟨?_, length_run_sync a header low hh hk⟩, fun hk => ?_,
      cycles_eq_length_run a header low hh, fun hp n => ?_, fun hk hl => dataDrives_run_write a header low hk hl,
      fun x => ?_, fun slot hk hp => ?_, fun h => ?_⟩
    · show a.run header low = _
      rw [run_write a header low hk, opens, slotted (by simp [hk])]
      exact (List.append_assoc _ [turnaround] [⟨.status, none⟩]).symm
    · show a.run header low = _
      rw [run_read a header low hk, opens, slotted (by simp [hk])]
      rfl
    · show a.run header low = _
      rw [run_sync a header low hk]
      exact (List.append_assoc _ [turnaround] [⟨.status, none⟩]).symm
    · rw [← waitedFor hk]
      exact length_run a header low hh hk
    · have still : w = fun _ => 0 := funext fun k => if_neg hp
      show ((List.range n).map w).sum = 0
      rw [still]
      simp
    · simp [BusCycle.readsWait]
    · have waits (k : Nat) : a.waits low k = low k := (waits_eq a low hk k).trans (if_pos hp)
      refine ⟨?_, ?_, timeoutCycles_eq_length a header low hh slot, fun hs late before => ?_⟩
      · show a.runToTimeout header low slot = _
        rw [Attempt.runToTimeout, opens, slotted hk, paced]
        rfl
      · rw [← waitedFor hk]
        exact length_runToTimeout a header low hh slot
      · exact busCycles_of_timeout a header low hs ((waits slot).symm ▸ late) fun k hk => (waits k).symm ▸ before k hk
    · refine busCycles_of_no_timeout a header low fun k hk => ?_
      by_cases handshakes : a.frame.kind = .sync ∨ a.profile ≠ 1
      · rw [waits_of_not_handshake a low handshakes]
        exact Nat.zero_le _
      · simp only [not_or, ne_eq, not_not] at handshakes
        rw [waits_eq a low handshakes.1, if_pos handshakes.2]
        exact (h.resolve_left handshakes.1).resolve_left (not_not_intro handshakes.2) k hk
  · intro f x data o clean
    have decoded (h : clean) : o = decodeStatus x := attemptOutcome_of_clean x h
    refine ⟨attemptOutcome_of_not_clean x, fun h even => (decoded h).trans (decodeStatus_even even), fun h odd => ?_,
      fun b => ⟨sampleOdd_driven b, rfl⟩, by decide⟩
    rw [decoded h, decodeStatus_odd odd]
    refine ⟨fun ok => by rw [if_pos ok], fun nak => by rw [nak]; rfl, fun parity => by rw [parity]; rfl,
      fun ok nak parity => by rw [if_neg ok, if_neg nak, if_neg parity]⟩
  · intro s f o data got
    refine ⟨storeReceived_of_not data, fun hk ho => ⟨fun i hp => ⟨fun capture => ?_, fun other => ?_⟩, fun b hp => ?_⟩⟩
    · rw [storeReceived_record data hk ho hp, if_pos capture, transactionData_eq]
      rfl
    · rw [storeReceived_record data hk ho hp, if_neg other]
    · exact storeReceived_area hk ho hp

end Sys2Proof.Machine
end

/-!
SUPPORT. The channels' own records: arrivals (R81 to R83), the commands to one channel (R80, R86, R96), and the end of a
unit (R88, R93 to R96).
-/

section
namespace Sys2Proof.Machine

open Sys2Proof

/-! ## Arrivals (R81 to R83) -/

section
variable {r : ChannelRec}

theorem arrival_ignored (h : r.active = false) : r.arrival = .ignored := if_neg (by simp [h])

theorem arrival_counted (h : r.active = true) (hp : r.pending.toNat ≤ 1) : r.arrival = .counted := by
  rw [ChannelRec.arrival, if_pos h, if_pos hp]

theorem arrival_overran (h : r.active = true) (hp : 2 ≤ r.pending.toNat) : r.arrival = .overran := by
  rw [ChannelRec.arrival, if_pos h, if_neg (by omega)]

theorem arrive_of_ignored (h : r.arrival = .ignored) : r.arrive = r := by rw [ChannelRec.arrive, h]

theorem arrive_of_counted (h : r.arrival = .counted) : r.arrive = { r with pending := r.pending + 1 } := by
  rw [ChannelRec.arrive, h]

theorem arrive_of_overran (h : r.arrival = .overran) :
    r.arrive = if r.state = .waiting then { r with haltCause := .overrun }.halt else r.recordCause .overrun := by
  rw [ChannelRec.arrive, h]

end

/-- Settles O12, by the three things an arrival can do. -/
theorem arrivalCountsOrOverruns : Obligations.ArrivalCountsOrOverruns := by
  intro r
  have active := (channelActive_iff r).mpr
  refine ⟨fun hw hb => ?_, fun hs hp => ?_, fun hs hp => ?_, fun hs hp => ?_⟩
  · have idle : r.active = false := by rw [← Bool.not_eq_true, channelActive_iff]; simp [hw, hb]
    exact arrive_of_ignored (arrival_ignored idle)
  · exact arrive_of_counted (arrival_counted (active hs) hp)
  · rw [arrive_of_overran (arrival_overran (active (.inl hs)) hp), if_pos hs]
    rfl
  · rw [arrive_of_overran (arrival_overran (active (.inr hs)) hp), if_neg (by simp [hs])]
    rfl

/-! ## Commands to one channel (R80, R86, R96) -/

section
variable {s : State} {c : Fin 16}

theorem ownStartChannel_badOperand (h : 15 < s.cmdOperand.toNat) : s.ownStartChannel = ⟨s, some .badOperand⟩ := if_pos h

/-- START_CHANNEL of an index in range: the checks behind the operand's (R80). -/
theorem ownStartChannel_eq (h : s.cmdOperand.toNat ≤ 15) (hc : c = sixteenIndex s.cmdOperand) : s.ownStartChannel =
    let r := s.channel c
    let d := s.descriptor r.firstSlot.toNat
    if r.active then ⟨s, some .wrongState⟩
    else if r.firstSlot.toNat ≤ 47 ∧ d.valid then
      ⟨s.setChannel c { r.load r.firstSlot d with
        pending := 0, haltCause := .none, stopPending := false, state := .waiting }, some .ok⟩
    else ⟨s, some .invalidRecord⟩ := by
  subst hc
  exact if_neg (Nat.not_lt.mpr h)

theorem ownStopChannel_badOperand (h : 15 < s.cmdOperand.toNat) : s.ownStopChannel = ⟨s, some .badOperand⟩ := if_pos h

/-- STOP_CHANNEL of an index in range acts by the state of its channel (R96). -/
theorem ownStopChannel_eq (h : s.cmdOperand.toNat ≤ 15) (hc : c = sixteenIndex s.cmdOperand) : s.ownStopChannel =
    match (s.channel c).state with
    | .waiting => ⟨s.setChannel c { s.channel c with state := .idle, pending := 0 }, some .ok⟩
    | .busy => ⟨s.setChannel c { s.channel c with stopPending := true }, none⟩
    | .idle => ⟨s, some .wrongState⟩
    | .done => ⟨s, some .wrongState⟩
    | .halted => ⟨s, some .wrongState⟩ := by
  subst hc
  exact if_neg (Nat.not_lt.mpr h)

theorem ownTriggerChannel_badOperand (h : 15 < s.cmdOperand.toNat) : s.ownTriggerChannel = ⟨s, some .badOperand⟩ :=
  if_pos h

/-- TRIGGER_CHANNEL of an index in range is an arrival at its channel (R86). -/
theorem ownTriggerChannel_eq (h : s.cmdOperand.toNat ≤ 15) (hc : c = sixteenIndex s.cmdOperand) : s.ownTriggerChannel =
    ⟨s.setChannel c (s.channel c).arrive, some (s.channel c).arrival.result⟩ := by
  subst hc
  exact if_neg (Nat.not_lt.mpr h)

end

/-- Settles O19, by the order of the checks. -/
theorem startChannelFollowsItsOrder : Obligations.StartChannelFollowsItsOrder := by
  intro s hp hu u c r d
  let w : State := { s with cmdCode := 0x10 }
  have taken : ∀ (t : State) (x : Result), w.ownStartChannel = ⟨t, some x⟩ →
      exec .startChannel s = .next { t with cmdResult := x.code, commandDone := true }.settle :=
    fun t x h => command_answered hp hu h
  have checks (h : s.cmdOperand.toNat ≤ 15) := ownStartChannel_eq (s := w) (c := c) h rfl
  have inactive : r.state = .idle ∨ r.state = .done ∨ r.state = .halted → ¬(w.channel c).active = true := fun h => by
    rw [show (w.channel c).active = false from (channelNotActive_iff r).mpr h]
    exact Bool.false_ne_true
  refine ⟨fun h => taken w .badOperand (ownStartChannel_badOperand h), fun h hs => taken w .wrongState ?_,
    fun h hs hv => taken w .invalidRecord ?_, fun h hs hf hv => taken (w.setChannel c { r.load r.firstSlot d with
      pending := 0, haltCause := .none, stopPending := false, state := .waiting }) .ok ?_⟩
  · exact (checks h).trans (if_pos ((channelActive_iff r).mpr hs))
  · have refused : ¬(r.firstSlot.toNat ≤ 47 ∧ d.valid = true) := fun ⟨hf, hd⟩ => by
      rcases hv with hv | hv
      · omega
      · rw [hv] at hd
        cases hd
    exact (checks h).trans ((if_neg (inactive hs)).trans (if_neg refused))
  · exact (checks h).trans ((if_neg (inactive hs)).trans (if_pos ⟨hf, hv⟩))

/-- Settles O20: STOP_CHANNEL by the state of the channel, TRIGGER_CHANNEL by what its arrival does. -/
theorem stopAndTriggerChannelActByState : Obligations.StopAndTriggerChannelActByState := by
  intro s hp hu u w c r resting serving
  let v : State := { s with cmdCode := 0x12 }
  have stopped : ∀ (t : State) (x : Result), u.ownStopChannel = ⟨t, some x⟩ →
      exec .stopChannel s = .next { t with cmdResult := x.code, commandDone := true }.settle :=
    fun t x h => command_answered hp hu h
  have stopWaits : ∀ t : State, u.ownStopChannel = ⟨t, none⟩ →
      exec .stopChannel s = .next { t with unit := .pending, cmdResult := 0xFF }.settle :=
    fun t h => command_waits hp hu h
  have triggered : ∀ (t : State) (x : Result), v.ownTriggerChannel = ⟨t, some x⟩ →
      exec .triggerChannel s = .next { t with cmdResult := x.code, commandDone := true }.settle :=
    fun t x h => command_answered hp hu h
  refine ⟨fun h => ⟨stopped u .badOperand (ownStopChannel_badOperand h),
    triggered v .badOperand (ownTriggerChannel_badOperand h)⟩, fun h => ?_⟩
  have byState := ownStopChannel_eq (s := u) (c := c) h rfl
  have byArrival : v.ownTriggerChannel = ⟨v.setChannel c r.arrive, some r.arrival.result⟩ := ownTriggerChannel_eq h rfl
  have active : serving → r.active = true := (channelActive_iff r).mpr
  refine ⟨fun hs => stopped (u.setChannel c { r with state := .idle, pending := 0 }) .ok ?_,
    fun hs => stopWaits (u.setChannel c { r with stopPending := true }) ?_, fun hs => stopped u .wrongState ?_,
    fun hs hq => triggered (v.setChannel c { r with pending := r.pending + 1 }) .ok ?_,
    fun hs hq => triggered (v.setChannel c r.arrive) .overrun ?_, fun hs => triggered v .wrongState ?_⟩
  · rw [byState, show (u.channel c).state = .waiting from hs]
    rfl
  · rw [byState, show (u.channel c).state = .busy from hs]
    rfl
  · rcases hs with hs | hs | hs <;> rw [byState, show (u.channel c).state = _ from hs]
  · have counted : r.arrival = .counted := arrival_counted (active hs) hq
    rw [byArrival, arrive_of_counted counted, counted]
    rfl
  · rw [byArrival, arrival_overran (active hs) hq]
    rfl
  · have ignored : r.arrival = .ignored := arrival_ignored ((channelNotActive_iff r).mpr hs)
    rw [byArrival, arrive_of_ignored ignored, ignored, show v.setChannel c r = v from setChannel_channel_self v c]
    rfl

end Sys2Proof.Machine
end

section
namespace Sys2Proof.Machine

open Sys2Proof

/-! ## The end of a unit (R88, R93 to R96) -/

/-- Step 2 of R88 for a record with STOP_PENDING `p`. -/
theorem unitNext_eq {q : ChannelRec} {p : Bool} (h : q.stopPending = p) (stops : Bool) : q.unitNext stops =
    if p = true then
      { q with
        state := .idle, pending := 0, stopPending := false
        noticeHalt := q.noticeHalt || decide (q.haltCause ≠ .none) }
    else if q.haltCause ≠ .none then { q with state := .halted, pending := 0, stopPending := false, noticeHalt := true }
    else if stops = true then { q with state := .done, pending := 0 }
    else { q with state := .waiting } := by
  have notice : (q.haltCause != .none) = decide (q.haltCause ≠ .none) := by
    rw [bne, beq_eq_decide, ← decide_not]
  rw [← h, ChannelRec.unitNext, notice]
  rfl

section
variable {s : State} {c : Fin 16}

theorem unitRecord_of_failure {cause : Condition} (h : cause ≠ .none) :
    s.unitRecord c cause = ((s.channel c).recordCause cause).unitNext false := if_neg h

/-- A successful unit that leaves a count goes on in its descriptor. -/
theorem unitRecord_of_count (h : (s.channel c).remainingCount ≠ 1) :
    s.unitRecord c .none = ((s.channel c).countUnit (s.currentDescriptor c)).unitNext false := by
  have left : ¬(s.channel c).remainingCount - 1 = 0 := fun e => h (by bv_omega)
  have success : s.unitSuccess c = (s.channel c).countUnit (s.currentDescriptor c) := if_neg left
  have goesOn : s.unitStops c = false := by
    show ((s.channel c).remainingCount - 1 == 0 && _ && _) = false
    rw [beq_false_of_ne left]
    rfl
  rw [State.unitRecord, if_pos rfl, success, goesOn]

/-- A successful unit that ends its descriptor's count takes the end action (R93). -/
theorem unitRecord_of_last (h : (s.channel c).remainingCount = 1) :
    let d := s.currentDescriptor c
    s.unitRecord c .none =
      (s.endAction ((s.channel c).countUnit d) d).unitNext (d.endAction != 1 && d.endAction != 2) := by
  intro d
  have ended : (s.channel c).remainingCount - 1 = 0 := by rw [h]; rfl
  have success : s.unitSuccess c = s.endAction ((s.channel c).countUnit d) d := if_pos ended
  have stops : s.unitStops c = (d.endAction != 1 && d.endAction != 2) := by
    show ((s.channel c).remainingCount - 1 == 0 && d.endAction != 1 && d.endAction != 2) = _
    rw [ended]
    rfl
  rw [State.unitRecord, if_pos rfl, success, stops]

end

/-- The counts of a successful unit of a channel with a trigger pending (R88, step 1). -/
theorem countUnit_eq {r : ChannelRec} (d : Descriptor) (h : r.pending ≠ 0) : r.countUnit d = { r with
    currentOffset := if d.offsetIncrement then r.currentOffset + d.unitSize else r.currentOffset
    currentAddress := if d.memoryIncrement then r.currentAddress + d.unitSize.setWidth 16 else r.currentAddress
    pending := r.pending - 1, remainingCount := r.remainingCount - 1, unitsDone := r.unitsDone + 1 } := by
  rw [ChannelRec.countUnit, if_neg h]
  rfl

/-- Settles O50: the frame of a unit's end, and its record by failure, by a count that is left, and by END_ACTION. -/
theorem unitEndFollowsItsSteps : Obligations.UnitEndFollowsItsSteps := by
  intro s c cause r d counted next loads u
  have record : ∀ failure, (s.unitEnd c failure).channel c = s.unitRecord c failure := fun failure => by
    rw [channel_unitEnd, if_pos rfl]
  have steps : ∀ (q : ChannelRec) (stops : Bool), q.stopPending = r.stopPending → q.unitNext stops = next q stops :=
    fun _ stops h => unitNext_eq h stops
  have frame : u = _ := unitEnd_frame s c cause
  have channels : u.channels = s.channels.set c (s.unitRecord c cause) := by rw [frame]
  refine ⟨by rw [frame], by rw [frame], fun k hk => (channel_unitEnd s c k cause).trans (if_neg hk), channels ▸ frame,
    fun hs => ?_, fun hs => ?_, fun hc => ?_, fun hp => ?_⟩
  · rcases unitEnd_cases s c cause with ⟨h, _⟩ | ⟨_, e⟩
    · exact absurd (hs.symm.trans h) (by simp)
    · rw [show u = _ from e]
      exact ⟨rfl, rfl, rfl⟩
  · rcases unitEnd_cases s c cause with ⟨_, e⟩ | ⟨h, _⟩
    · rw [show u = _ from e]
      exact ⟨rfl, rfl, rfl⟩
    · exact absurd (hs.symm.trans h) (by simp)
  · rw [show u.channel c = _ from record cause, unitRecord_of_failure hc]
    exact steps _ false rfl
  · have counts : r.countUnit d = counted := countUnit_eq d hp
    have last (h : r.remainingCount = 1) : (s.unitEnd c .none).channel c =
        (s.endAction counted d).unitNext (d.endAction != 1 && d.endAction != 2) := by
      rw [record, unitRecord_of_last h, show (s.channel c).countUnit (s.currentDescriptor c) = counted from counts]
    have chains (slot : Byte) (h : (s.unitEnd c .none).channel c = (s.chainTo counted d slot).unitNext false) :
        loads slot := by
      refine ⟨fun hv => ?_, fun hv => ?_⟩
      · rw [h, State.chainTo, if_pos hv]
        exact steps _ false rfl
      · rw [h, State.chainTo, if_neg (by rw [show (s.descriptor slot.toNat).valid = false from hv]; simp)]
        exact steps _ false rfl
    refine ⟨fun h => ?_, fun h ha => ?_, fun h ha => chains _ ?_, fun h ha => chains _ ?_⟩
    · rw [record, unitRecord_of_count h, show (s.channel c).countUnit (s.currentDescriptor c) = counted from counts]
      exact steps _ false rfl
    · rw [last h, State.endAction, ha]
      exact steps _ true rfl
    · rw [last h, State.endAction, ha]
      rfl
    · rw [last h, State.endAction, ha]
      rfl

end Sys2Proof.Machine
end

/-!
SUPPORT. The work of a granted channel and of a granted request: the frames of a unit (R91, R92) and how the grant and the
first target check start them (R87, R89, R90, R107 to R109).
-/

section
namespace Sys2Proof.Machine

open Sys2Proof

/-! ## The frames of a unit (R91, R92) -/

/-- No byte of the data area is part of a descriptor (R56). -/
theorem descriptor_writeMem (s : State) {a k : Nat} (bs : List Byte) (hk : k ≤ 47) (ha : Config.dataBase ≤ a) :
    (s.writeMem a bs).descriptor k = s.descriptor k :=
  descriptor_congr fun i hi => memByte_writeMem_outside s bs <| .inl <| by
    have : 0x0D00 ≤ a := ha
    rw [slotAddress_eq]
    omega

section
variable {s : State} {a : Attempt} {c : Fin 16} {acknowledge : Bool} {f : Frame} {i : Instr} {o : FrameOutcome}
  {data : List Sample}

theorem requesterOutcome_of_channel (hg : s.grant = some (.channel c acknowledge)) :
    s.requesterOutcome a o data = (s.storeReceived a.frame o data).channelFrameEnd c acknowledge a.frame o := by
  unfold State.requesterOutcome
  simp only [hg]

/-- The end of the last attempt of a frame of a unit: the unit's own rule, between the count of the target table and a
TARGET_OFFLINE that waits for the frame. -/
theorem exec_unitFrame (he : s.engine = .attempt a) (hg : s.grant = some (.channel c acknowledge))
    (hr : s.softResetPending = false) (hc : a.endsBy i o data) (hl : a.last o) :
    let u := s.countOutcome a.frame.target a.frame.kind o
    exec i s = .next (((u.storeReceived a.frame o data).channelFrameEnd c acknowledge a.frame o).completeOffline
      a.frame.target).settle := by
  intro u
  rw [exec_of_endsBy he hc, attemptOver_of_last hl hr, requesterOutcome_of_channel (s := u) hg]

theorem channelFrameEnd_of_ne_ok (h : o ≠ .ok) : s.channelFrameEnd c acknowledge f o = s.unitEnd c o.condition :=
  if_pos h

theorem channelFrameEnd_of_sync (hk : f.kind = .sync) : s.channelFrameEnd c acknowledge f .ok = s.startInterGap 0 := by
  rw [State.channelFrameEnd, if_neg (by simp), if_pos hk]

/-- Behind the data frame of a descriptor with ACK_ENABLE comes the acknowledge frame (R92). -/
theorem channelFrameEnd_of_acknowledged (hk : f.kind ≠ .sync) (h : (s.currentDescriptor c).ackEnable = true) :
    s.channelFrameEnd c false f .ok = { s with grant := some (.channel c true) }.startInterGap 0 := by
  rw [State.channelFrameEnd, if_neg (by simp), if_neg hk, h]
  rfl

/-- The acknowledge frame, and a data frame without one, is the last of its unit (R91, R92). -/
theorem channelFrameEnd_of_last (hk : f.kind ≠ .sync)
    (h : acknowledge = true ∨ (s.currentDescriptor c).ackEnable = false) :
    s.channelFrameEnd c acknowledge f .ok = s.unitEnd c .none := by
  rw [State.channelFrameEnd, if_neg (by simp), if_neg hk, if_neg (by rcases h with h | h <;> simp [h])]

end

/-- Settles O51, by the outcome and the kind of the frame that ends. -/
theorem unitFramesFollowTheirOutcome : Obligations.UnitFramesFollowTheirOutcome := by
  intro s c d
  refine ⟨rfl, rfl, ?_⟩
  intro a acknowledge i o data he hg hr hc hl t u goesOn
  have ended := exec_unitFrame he hg hr hc hl
  have unstored (h : a.frame.kind ≠ .read ∨ o ≠ .ok) : u.storeReceived a.frame o data = u := storeReceived_of_not data h
  have dataFrame (v : State) (ho : o = .ok) (hk : a.frame.kind ≠ .sync) (hv : u.storeReceived a.frame o data = v)
      (same : v.currentDescriptor c = d) :
      (acknowledge = false → d.ackEnable = true →
        goesOn { v with grant := some (.channel c true), engine := .interGap 1 }) ∧
      (acknowledge = true ∨ d.ackEnable = false → goesOn (v.unitEnd c .none)) := by
    subst ho hv
    rw [← same]
    exact ⟨fun hn h => ended.trans (by rw [hn, channelFrameEnd_of_acknowledged hk h]; rfl),
      fun h => ended.trans (by rw [channelFrameEnd_of_last hk h])⟩
  refine ⟨fun ho => ?_, fun ho hk => ?_, fun ho hk => ?_, fun ho hk hn b hp hb hslot => ?_⟩
  · exact ended.trans (by rw [unstored (.inr ho), channelFrameEnd_of_ne_ok ho])
  · subst ho
    exact ended.trans (by rw [unstored (.inl (by simp [hk])), channelFrameEnd_of_sync hk]; rfl)
  · exact dataFrame u ho (by simp [hk]) (unstored (.inl (by simp [hk]))) rfl
  · have read := dataFrame _ ho (by simp [hk]) (storeReceived_area hk ho hp) (descriptor_writeMem u _ hslot hb)
    exact ⟨read.1 hn, fun h => read.2 (.inr h)⟩

/-! ## A frame of the data area, or the SYNC in its place (R145) -/

/-- A WRITE frame from the data area sends the area's bytes (R66). -/
theorem pathBytes_of_area {s : State} {f : Frame} {b : Nat} (hk : f.kind = .write) (hp : f.path = .area b) :
    s.pathBytes f = memReadList s.mem b f.length := by
  unfold State.pathBytes
  rw [hk, hp]

/-- The first attempt of a data frame: a READ, and a WRITE to a target in step, go out as they are; any other WRITE goes out
as the SYNC that precedes it (R145). -/
theorem firstAttempt_of_area {s : State} {f : Frame} {b : Nat} (hp : f.path = .area b) :
    let e := s.newAttempt (s.frameFor f) 1
    (f.kind = .read → e.frame = f) ∧
      (f.kind = .write → (s.target f.target).inSync = true → e.frame = f ∧ e.sent = memReadList s.mem b f.length) ∧
      (f.kind = .write → (s.target f.target).inSync = false → e.frame.kind = .sync) ∧
      (e.frame.kind ≠ .sync → e.frame = f) := by
  intro e
  have frame : e.frame = s.frameFor f := rfl
  have sent : e.sent = s.pathBytes (s.frameFor f) := rfl
  rw [frame, sent]
  rcases frameFor_cases s f with ⟨isWrite, unsynced, out⟩ | ⟨synced, out⟩ <;> rw [out]
  · exact ⟨fun hk => by simp [hk] at isWrite, fun _ hs => by simp [hs] at unsynced, fun _ _ => rfl, fun h => absurd rfl h⟩
  · exact ⟨fun _ => rfl, fun hk _ => ⟨rfl, pathBytes_of_area hk hp⟩, fun hk hs => absurd hs (synced hk), fun _ => rfl⟩

/-! ## The grant of a channel (R87, R89, R124) -/

section
variable {s t : State} {c : Fin 16}

/-- A channel's descriptor is that of its slot in memory. -/
theorem currentDescriptor_congr (hm : t.mem = s.mem) (hc : (t.channel c).currentSlot = (s.channel c).currentSlot) :
    t.currentDescriptor c = s.currentDescriptor c := by
  unfold State.currentDescriptor
  rw [hc]
  exact descriptor_congr fun k _ => by unfold State.memByte; rw [hm]

theorem unitInRange_iff (s : State) (c : Fin 16) : s.unitInRange c = true ↔
    0x0D00 ≤ (s.channel c).currentAddress.toNat ∧
      (s.channel c).currentAddress.toNat + (s.currentDescriptor c).unitSize.toNat ≤ 0x2000 := by
  unfold State.unitInRange
  rw [Bool.and_eq_true, decide_eq_true_eq, decide_eq_true_eq]
  rfl

theorem channel_channelGranted (s : State) (c : Fin 16) :
    (s.channelGranted c).channel c = { s.channel c with state := .busy } :=
  (channel_setChannel s c c _).trans (if_pos rfl)

theorem unitInRange_channelGranted (s : State) (c : Fin 16) : (s.channelGranted c).unitInRange c = s.unitInRange c := by
  have place := channel_channelGranted s c
  exact unitInRange_congr (by rw [place]) (currentDescriptor_congr rfl (by rw [place]))

/-- A unit whose bytes lie in the data area waits for its first target check (R89). -/
theorem grantChannel_of_inRange (h : s.unitInRange c = true) :
    s.grantChannel c = { s.channelGranted c with engine := .granted } :=
  if_pos ((unitInRange_channelGranted s c).trans h)

theorem grantChannel_of_not_inRange (h : ¬s.unitInRange c = true) :
    s.grantChannel c = (s.channelGranted c).unitEnd c .memoryRange :=
  if_neg (unitInRange_channelGranted s c ▸ h)

theorem channel_grantChannel (h : s.unitInRange c = true) :
    (s.grantChannel c).channel c = { s.channel c with state := .busy } := by
  rw [grantChannel_of_inRange h]
  exact channel_channelGranted s c

/-- The grant leaves the channel's place in its descriptor. -/
theorem currentDescriptor_grantChannel (h : s.unitInRange c = true) :
    (s.grantChannel c).currentDescriptor c = s.currentDescriptor c :=
  currentDescriptor_congr (by rw [grantChannel_frame]) (by rw [channel_grantChannel h])

theorem unitFrame_grantChannel (h : s.unitInRange c = true) : (s.grantChannel c).unitFrame c = s.unitFrame c := by
  unfold State.unitFrame
  rw [currentDescriptor_grantChannel h, channel_grantChannel h]

theorem targets_grantChannel (s : State) (c : Fin 16) : (s.grantChannel c).targets = s.targets := by
  rw [grantChannel_frame]

theorem online_congr (h : t.targets = s.targets) (k : Fin 16) : t.online k = s.online k := by
  unfold State.online State.target
  rw [h]

theorem firstCheck_grantChannel (h : s.unitInRange c = true) :
    (s.grantChannel c).firstCheck = (s.grantChannel c).startUnitFrame c false := by
  rw [grantChannel_of_inRange h]
  rfl

/-- At its first target check a granted unit with an ONLINE target starts its data frame (R90, R91). -/
theorem firstCheck_grantChannel_online (hr : s.unitInRange c = true)
    (h : s.online (s.currentDescriptor c).target = true) :
    let t := s.grantChannel c
    t.firstCheck = { t with
      engine := .attempt (s.newAttempt (s.frameFor (s.unitFrame c)) 1), busDivInForce := s.busDiv } := by
  have targets := targets_grantChannel s c
  have mem : (s.grantChannel c).mem = s.mem := by rw [grantChannel_frame]
  have busDiv : (s.grantChannel c).busDiv = s.busDiv := by rw [grantChannel_frame]
  simp only [firstCheck_grantChannel hr]
  rcases startUnitFrame_cases (s.grantChannel c) c false with ⟨_, e⟩ | ⟨down, _⟩
  · rw [e, if_neg Bool.false_ne_true, unitFrame_grantChannel hr, State.startFrame, newAttempt_congr targets mem,
      frameFor_congr targets, busDiv]
  · rw [currentDescriptor_grantChannel hr, online_congr targets, h] at down
    cases down

theorem firstCheck_grantChannel_down (hr : s.unitInRange c = true)
    (h : s.online (s.currentDescriptor c).target = false) :
    (s.grantChannel c).firstCheck = (s.grantChannel c).unitEnd c .targetDown := by
  rw [firstCheck_grantChannel hr]
  rcases startUnitFrame_cases (s.grantChannel c) c false with ⟨up, _⟩ | ⟨_, e⟩
  · rw [currentDescriptor_grantChannel hr, online_congr (targets_grantChannel s c), h] at up
    cases up
  · exact e

end

/-! ## The grant of a request (R107) -/

section
variable {s : State} {r : Request}

/-- FORCE_SYNC marks the request's target at the grant, and no other target changes (R107). -/
theorem target_grantHost (k : Fin 16) : (s.grantHost r).target k =
    if k = r.target then (if r.forceSync then { s.target r.target with inSync := false } else s.target r.target)
    else s.target k := by
  show ((s.setRequests s.requests.tail).forceSync r).target k = _
  unfold State.forceSync
  by_cases hk : k = r.target
  · subst hk
    split <;> simp
  · split <;> simp [hk]

/-- The grant leaves the state of every target. -/
theorem online_grantHost (k : Fin 16) : (s.grantHost r).online k = s.online k := by
  unfold State.online
  rw [target_grantHost]
  by_cases hk : k = r.target
  · subst hk
    rw [if_pos rfl]
    split <;> rfl
  · rw [if_neg hk]

theorem firstCheck_grantHost : (s.grantHost r).firstCheck = (s.grantHost r).startRequestFrame r := rfl

/-- At its first target check a granted request with an ONLINE target starts its data frame (R108, R109). -/
theorem firstCheck_grantHost_online (h : s.online r.target = true) :
    let t := s.grantHost r
    t.firstCheck = { t with engine := .attempt (t.newAttempt (t.frameFor r.frame) 1), busDivInForce := s.busDiv } := by
  have busDiv : (s.grantHost r).busDiv = s.busDiv := by rw [grantHost_frame]
  simp only [firstCheck_grantHost]
  rcases startRequestFrame_cases (s.grantHost r) r with ⟨_, e⟩ | ⟨down, _⟩
  · rw [e, State.startFrame, busDiv]
  · rw [online_grantHost, h] at down
    cases down

theorem firstCheck_grantHost_down (h : s.online r.target = false) :
    (s.grantHost r).firstCheck = (s.grantHost r).requestEnd (r.without .targetDown) := by
  rw [firstCheck_grantHost]
  rcases startRequestFrame_cases (s.grantHost r) r with ⟨up, _⟩ | ⟨_, e⟩
  · rw [online_grantHost, h] at up
    cases up
  · exact e

end

/-- Settles O42: a channel's grant with its address check, a request's grant, and the two ends of the first check of each. -/
theorem grantedChannelAndRequestStart : Obligations.GrantedChannelAndRequestStart := by
  intro s
  refine ⟨?_, ?_⟩
  · intro c d a u t
    have granted : s.channelGranted c = u := by
      show { u with hostWait := _ } = u
      cases h : s.requests <;> simp [u, h]
    have inRange : s.unitInRange c = true ↔ 0x0D00 ≤ a ∧ a + d.unitSize.toNat ≤ 0x2000 := unitInRange_iff s c
    rw [← granted]
    refine ⟨fun h => grantChannel_of_not_inRange (by rw [inRange]; omega), fun hlo hhi => ?_⟩
    have range := inRange.mpr ⟨hlo, hhi⟩
    refine ⟨grantChannel_of_inRange range, firstCheck_grantChannel_down range, fun ho => ⟨_,
      firstCheck_grantChannel_online range ho, rfl, target_frameFor .., ?_⟩⟩
    have write (h : d.isWrite = true) : (s.unitFrame c).kind = .write := if_pos h
    have read (h : d.isWrite = false) : (s.unitFrame c).kind = .read := if_neg (ne_true_of_eq_false h)
    obtain ⟨ofRead, ofWrite, ofUnsynced, ofData⟩ := firstAttempt_of_area (s := s) (f := s.unitFrame c) rfl
    refine ⟨fun hr => ?_, fun hw hs => ?_, fun hw hs => ofUnsynced (write hw) hs, fun hk => ?_⟩
    · rw [ofRead (read hr)]
      exact ⟨read hr, rfl⟩
    · obtain ⟨out, sent⟩ := ofWrite (write hw) hs
      rw [out]
      exact ⟨write hw, sent⟩
    · rw [ofData hk]
      exact ⟨rfl, rfl⟩
  · intro r rest hq mark t
    have frame := grantHost_frame s r
    have marked : t.target r.target = mark := (target_grantHost r.target).trans (if_pos rfl)
    have completions : t.completions = s.completions := by rw [show t = _ from frame]
    have mem : t.mem = s.mem := by rw [show t = _ from frame]
    refine ⟨?_, target_grantHost, fun ho => ?_, fun ho => ⟨_, firstCheck_grantHost_online ho, rfl, target_frameFor .., ?_⟩⟩
    · rw [show rest = s.requests.tail by rw [hq]; rfl]
      exact frame
    · rw [show t.firstCheck = _ from firstCheck_grantHost_down ho, ← completions]
      rfl
    · obtain ⟨ofRead, ofWrite, ofUnsynced, _⟩ := firstAttempt_of_area (s := t) (f := r.frame) rfl
      have write (h : r.isWrite = true) : r.frame = ⟨.write, r.target, r.offset, r.length, .area r.address⟩ := by
        rw [Request.frame, if_pos h]
      have read (h : r.isWrite = false) : r.frame = ⟨.read, r.target, r.offset, r.length, .area r.address⟩ := by
        rw [Request.frame, if_neg (ne_true_of_eq_false h)]
      refine ⟨fun hr => ?_, fun hw hs => ?_, fun hw hs => ?_⟩
      · exact (ofRead (by rw [read hr])).trans (read hr)
      · obtain ⟨out, sent⟩ := ofWrite (by rw [write hw]) (marked ▸ hs)
        exact ⟨out.trans (write hw), by rw [sent, mem]; rfl⟩
      · exact ofUnsynced (by rw [write hw]) (marked ▸ hs)

end Sys2Proof.Machine
end

/-!
SUPPORT. The end of an event leaves nothing to do (R84, R106, R119, R165 to R169), and the arrivals of an edge, each with an
end of its own (R74, R75).
-/

section
namespace Sys2Proof.Machine

open Sys2Proof

/-! ## The end of an event moves the work only -/

/-- Settles O37, stage by stage of the event's end. -/
theorem settleChangesWorkOnly : Obligations.SettleChangesWorkOnly := fun s =>
  ⟨State.WorkMoves.settle s, ((State.WorkMoves.haltDownChannels s).trans (.disposeHeads _)).trans (.decisions _)⟩

/-! ## What the parts of a decision leave -/

/-- No WAITING channel holds a trigger for a target that is not ONLINE (R84). -/
def State.triggersOnline (s : State) : Prop :=
  ∀ c, s.hasTrigger c = true → s.online (s.currentDescriptor c).target = true

/-- The head of the request queue has an ONLINE target (R106). -/
def State.headOnline (s : State) : Prop := ∀ r rest, s.requests = r :: rest → s.online r.target = true

/-- An event's end has nothing to do: no channel halts, no head is disposed of, no excursion starts, and a free bus has no
candidate and no broadcast to send (R84, R106, R119, R165 to R169). -/
structure State.Rests (s : State) : Prop where
  triggers : s.triggersOnline
  head : s.headOnline
  excursion : s.busState = .quiet → s.callsExcursion = false
  decision : s.engine = .free → s.grant = none → s.softResetPending = false → s.choice = none ∧ s.broadcastDue = none

section
variable {s t : State}

theorem triggersOnline_congr (h : s.triggersOnline) (hc : t.channels = s.channels) (hm : t.mem = s.mem)
    (ht : ∀ k, t.online k = s.online k) : t.triggersOnline := fun c trigger => by
  have channel := channel_of_channels hc c
  rw [ht, currentDescriptor_congr hm (by rw [channel])]
  refine h c ?_
  rw [← trigger, State.hasTrigger, State.hasTrigger, channel]

/-- One channel takes a record that holds no trigger for a target that is not ONLINE. -/
theorem triggersOnline_setChannel (h : s.triggersOnline) {c : Fin 16} {r : ChannelRec}
    (hr : r.state = .waiting → r.pending ≠ 0 → s.online (s.descriptor r.currentSlot.toNat).target = true) :
    (s.setChannel c r).triggersOnline := fun e trigger => by
  rw [hasTrigger_iff, channel_setChannel] at trigger
  show s.online (s.descriptor ((s.setChannel c r).channel e).currentSlot.toNat).target = true
  rw [channel_setChannel]
  by_cases he : e = c
  · rw [if_pos he] at trigger ⊢
    exact hr trigger.1 trigger.2
  · rw [if_neg he] at trigger ⊢
    exact h e ((hasTrigger_iff s e).mpr trigger)

/-- R84 leaves no trigger for a target that is not ONLINE. -/
theorem triggersOnline_haltDownChannels (s : State) : s.haltDownChannels.triggersOnline := by
  obtain ⟨frame, channel⟩ := haltDownChannels_reads s
  have mem : s.haltDownChannels.mem = s.mem := by rw [frame]
  have targets : s.haltDownChannels.targets = s.targets := by rw [frame]
  intro c trigger
  have kept : ¬(s.hasTrigger c = true ∧ s.online (s.currentDescriptor c).target = false) := fun h => by
    rw [hasTrigger_iff, channel c, if_pos h] at trigger
    cases trigger.1
  have same : s.haltDownChannels.channel c = s.channel c := (channel c).trans (if_neg kept)
  rw [online_congr targets, currentDescriptor_congr mem (by rw [same])]
  rw [hasTrigger_iff, same, ← hasTrigger_iff] at trigger
  by_contra down
  exact kept ⟨trigger, eq_false_of_ne_true down⟩

/-- Disposal leaves a head with an ONLINE target (R106). -/
theorem headOnline_disposeHeads (s : State) : s.disposeHeads.headOnline := by
  intro r rest hq
  rcases disposeHeads_cases s with ⟨none, e⟩ | e <;> rw [e] at hq ⊢
  · refine online_of_remaining s (rest := rest) ?_
    rw [← hq, ← disposed_append_remaining s, none]
    rfl
  · exact online_of_remaining s hq

/-- A unit that fails leaves its channel IDLE or HALTED (R88). -/
theorem state_unitRecord_of_failure {c : Fin 16} {failure : Condition} (h : failure ≠ .none) :
    (s.unitRecord c failure).state ≠ .waiting := by
  rw [unitRecord_of_failure h, ChannelRec.unitNext]
  split
  · simp
  · rw [if_pos (haltCause_recordCause h)]
    simp [ChannelRec.halt]

theorem triggersOnline_unitEnd (h : s.triggersOnline) {c : Fin 16} {failure : Condition} (hf : failure ≠ .none) :
    (s.unitEnd c failure).triggersOnline := by
  have ended : (s.setChannel c (s.unitRecord c failure)).triggersOnline :=
    triggersOnline_setChannel h fun hw => absurd hw (state_unitRecord_of_failure hf)
  rw [unitEnd_frame]
  exact triggersOnline_congr ended rfl rfl fun _ => rfl

theorem triggersOnline_take (h : s.triggersOnline) (k : Candidate) : (s.take k).triggersOnline := by
  cases k with
  | duty n => exact triggersOnline_congr h rfl rfl fun _ => rfl
  | channel c =>
    have busy : (s.channelGranted c).triggersOnline :=
      triggersOnline_congr (triggersOnline_setChannel (c := c) (r := { s.channel c with state := .busy }) h (by simp))
        rfl rfl fun _ => rfl
    show (s.grantChannel c).triggersOnline
    rcases grantChannel_cases s c with ⟨_, e⟩ | ⟨_, e⟩ <;> rw [e]
    · exact triggersOnline_congr busy rfl rfl fun _ => rfl
    · exact triggersOnline_unitEnd busy (by simp)
  | host r =>
    have channels : (s.grantHost r).channels = s.channels := by rw [grantHost_frame]
    have mem : (s.grantHost r).mem = s.mem := by rw [grantHost_frame]
    exact triggersOnline_congr h channels mem online_grantHost

/-- The work that goes on leaves no trigger for a target that is not ONLINE: a unit that ends fails. -/
theorem triggersOnline_startWork (h : s.triggersOnline) : s.startWork.triggersOnline := by
  rcases startWork_cases s with ⟨n, p, _, e⟩ | ⟨c, k, _, e⟩ | ⟨r, _, _, e⟩ | ⟨_, e⟩ <;> rw [e]
  · rcases startTransaction_cases s n p with ⟨_, e⟩ | ⟨_, e⟩ <;> rw [e]
    · exact triggersOnline_congr h rfl rfl fun _ => rfl
    · rw [runFailed_frame]
      exact triggersOnline_congr h rfl rfl fun _ => rfl
  · rcases startUnitFrame_cases s c k with ⟨_, e⟩ | ⟨_, e⟩ <;> rw [e]
    · exact triggersOnline_congr h rfl rfl fun _ => rfl
    · exact triggersOnline_unitEnd h (by simp)
  · rcases startRequestFrame_cases s r with ⟨_, e⟩ | ⟨_, e⟩ <;> rw [e] <;>
      exact triggersOnline_congr h rfl rfl fun _ => rfl
  · exact triggersOnline_congr h rfl rfl fun _ => rfl

/-- The work that goes on moves neither the request queue nor a target, and does not leave the bus free. -/
theorem startWork_keeps (s : State) :
    s.startWork.requests = s.requests ∧ s.startWork.targets = s.targets ∧ s.startWork.engine ≠ .free := by
  rcases startWork_cases s with ⟨n, p, _, e⟩ | ⟨c, k, _, e⟩ | ⟨r, _, _, e⟩ | ⟨_, e⟩ <;> rw [e]
  · rcases startTransaction_cases s n p with ⟨_, e⟩ | ⟨_, e⟩ <;> rw [e]
    · simp
    · rw [runFailed_frame]
      simp
  · rcases startUnitFrame_cases s c k with ⟨_, e⟩ | ⟨_, e⟩ <;> rw [e]
    · simp
    · rw [unitEnd_frame]
      simp
  · rcases startRequestFrame_cases s r with ⟨_, e⟩ | ⟨_, e⟩ <;> rw [e] <;> simp [State.requestEnd]
  · simp

theorem headOnline_congr (h : s.headOnline) (hr : t.requests = s.requests) (ht : t.targets = s.targets) :
    t.headOnline := fun r rest hq => by
  rw [online_congr ht]
  exact h r rest (hr ▸ hq)

/-! ## A decision -/

/-- Work that is taken takes the bus, and leaves the bus state. -/
theorem take_keeps (s : State) (k : Candidate) : (s.take k).engine ≠ .free ∧ (s.take k).busState = s.busState := by
  cases k with
  | duty n => exact ⟨by simp [State.take, State.grantDuty], rfl⟩
  | channel c =>
    show (s.grantChannel c).engine ≠ .free ∧ _
    refine ⟨?_, by rw [State.take, grantChannel_frame]⟩
    rcases grantChannel_cases s c with ⟨_, e⟩ | ⟨_, e⟩ <;> rw [e]
    · simp
    · rw [unitEnd_frame]
      simp
  | host r =>
    rw [State.take, grantHost_frame]
    simp

/-- A decision changes nothing where nothing is to be decided; else the bus is taken, and it is not in QUIET. -/
theorem arbitrate_rests_or_takes (s : State) :
    (s.arbitrate = s ∧ (s.engine = .free → s.grant = none → s.softResetPending = false →
        s.choice = none ∧ s.broadcastDue = none)) ∨
      (s.arbitrate.engine ≠ .free ∧ s.arbitrate.busState ≠ .quiet) := by
  rcases arbitrate_cases s with ⟨busy, e⟩ | ⟨_, _, ⟨k, choice, e⟩ | ⟨_, b, due, e⟩ | ⟨none, undue, e⟩⟩
  · exact .inl ⟨e, fun he hg hs => absurd ⟨(busFree_iff s).mpr ⟨he, hg⟩, hs⟩ busy⟩
  · obtain ⟨taken, state⟩ := take_keeps s k
    refine .inr ⟨e ▸ taken, fun quiet => ?_⟩
    rw [e, state] at quiet
    simp [choice_eq_none (.inl quiet)] at choice
  · refine .inr ⟨by simp [e], fun quiet => ?_⟩
    rw [e] at quiet
    have hq : s.busState = .quiet := quiet
    simp [State.broadcastDue, hq] at due
  · exact .inl ⟨e, fun _ _ _ => ⟨none, undue⟩⟩

theorem triggersOnline_arbitrate (h : s.triggersOnline) : s.arbitrate.triggersOnline := by
  rcases arbitrate_cases s with ⟨_, e⟩ | ⟨_, _, ⟨k, _, e⟩ | ⟨_, b, _, e⟩ | ⟨_, _, e⟩⟩ <;> rw [e]
  · exact h
  · exact triggersOnline_take h k
  · exact triggersOnline_congr h rfl rfl fun _ => rfl
  · exact h

theorem triggersOnline_disposeHeads (h : s.triggersOnline) : s.disposeHeads.triggersOnline := by
  rw [disposeHeads_frame]
  exact triggersOnline_congr h rfl rfl fun _ => rfl

/-- The start of an excursion leaves everything but the bus state and the purpose, and no excursion to start. -/
theorem startExcursion_keeps (s : State) :
    s.startExcursion = { s with busState := s.startExcursion.busState, purpose := s.startExcursion.purpose } ∧
      (s.startExcursion.busState = .quiet → s.startExcursion.callsExcursion = false) := by
  rcases startExcursion_cases s with ⟨_, _, e⟩ | ⟨stays, e⟩ <;> rw [e]
  · exact ⟨rfl, fun h => by cases h⟩
  · exact ⟨rfl, fun h => eq_false_of_ne_true fun calls => stays ⟨h, calls⟩⟩

/-- Behind halts and disposals the decisions leave an event's end nothing to do. -/
theorem rests_decisions (hc : s.triggersOnline) (hr : s.headOnline) : s.decisions.Rests := by
  obtain ⟨frame, called⟩ := startExcursion_keeps s
  have triggers : s.startExcursion.triggersOnline := by
    rw [frame]
    exact triggersOnline_congr hc rfl rfl fun _ => rfl
  have head : s.startExcursion.headOnline := by
    rw [frame]
    exact headOnline_congr hr rfl rfl
  unfold State.decisions
  rcases arbitrate_rests_or_takes s.startExcursion with ⟨e, decided⟩ | ⟨taken, state⟩
  · rw [e, disposeHeads_of_online head]
    exact ⟨triggers, head, called, decided⟩
  · have disposed := disposeHeads_frame s.startExcursion.arbitrate
    refine ⟨triggersOnline_disposeHeads (triggersOnline_arbitrate triggers), headOnline_disposeHeads _, fun quiet => ?_,
      fun free => ?_⟩
    · rw [disposed] at quiet
      exact absurd quiet state
    · rw [disposed] at free
      exact absurd free taken

/-- The end of an arrival leaves nothing to do (R75, R84, R106, R119). -/
theorem rests_react (s : State) : s.react.Rests :=
  rests_decisions (triggersOnline_disposeHeads (triggersOnline_haltDownChannels s)) (headOnline_disposeHeads _)

/-- The end of an event leaves nothing to do (R84, R106, R119, R165 to R169). -/
theorem rests_settle (s : State) : s.settle.Rests := by
  have triggers := triggersOnline_disposeHeads (triggersOnline_haltDownChannels s)
  have head := headOnline_disposeHeads s.haltDownChannels
  unfold State.settle State.firstCheck
  split
  · obtain ⟨requests, targets, _⟩ := startWork_keeps s.haltDownChannels.disposeHeads
    exact rests_decisions (triggersOnline_startWork triggers) (headOnline_congr head requests targets)
  · exact rests_decisions triggers head

/-- On a bus that is not free the decisions leave the bus engine. -/
theorem engine_decisions (h : s.engine ≠ .free) : s.decisions.engine = s.engine := by
  have excursion : s.startExcursion.engine = s.engine := by rw [(startExcursion_keeps s).1]
  unfold State.decisions
  rw [arbitrate_of_not_free (excursion ▸ h), disposeHeads_frame]
  exact excursion

/-- Work that was granted makes its first target check by the end of the next event (log entry 22). -/
theorem engine_settle_of_granted (h : s.engine = .granted) : s.settle.engine ≠ .granted := by
  have granted : s.haltDownChannels.disposeHeads.engine = .granted := by
    rw [disposeHeads_frame, (haltDownChannels_reads s).1]
    exact h
  unfold State.settle
  rw [firstCheck_of_granted granted, engine_decisions (startWork_keeps _).2.2]
  exact engine_startWork_ne _

end

/-- Settles O38: the row GAP_END, and what an event's end leaves. -/
theorem nothingWaitsAfterAnEvent : Obligations.NothingWaitsAfterAnEvent := by
  intro s
  obtain ⟨triggers, head, excursion, decision⟩ := rests_settle s
  exact ⟨fun h => if_pos h, fun h => if_neg h, fun c hw hp => triggers c ((hasTrigger_iff _ c).mpr ⟨hw, hp⟩), head,
    engine_settle_of_granted, excursion, decision⟩

end Sys2Proof.Machine
end

section
namespace Sys2Proof.Machine

open Sys2Proof

/-! ## An arrival where nothing waited (R75, R84, R119) -/

/-- The arbiter has a decision to take in ACTIVE (R119). -/
def State.decidesInActive (s : State) : Prop :=
  s.engine = .free ∧ s.grant = none ∧ s.softResetPending = false ∧ s.busState = .active

theorem activeChoice_eq_none {s : State} (h : s.activeChoice = none) :
    s.firstUrgent = none ∧ s.channelCandidate = none ∧ s.requests = [] ∧ s.firstEntry = none ∧ s.pullinCandidate = none := by
  simp only [State.activeChoice, Option.or_eq_none_iff, Option.map_eq_none_iff] at h
  obtain ⟨⟨urgent, middle⟩, entry, pullin⟩ := h
  have classes : s.channelCandidate = none ∧ s.requests = [] := by
    simp only [State.middleClasses] at middle
    split at middle <;>
      simp only [Option.or_eq_none_iff, Option.map_eq_none_iff, List.head?_eq_none_iff] at middle
    · exact middle.symm
    · exact middle
  exact ⟨urgent, classes.1, classes.2, entry, pullin⟩

/-- Beside no other candidate the channel class decides (R122). -/
theorem activeChoice_of_channels {s : State} (hu : s.firstUrgent = none) (hr : s.requests = []) (he : s.firstEntry = none)
    (hp : s.pullinCandidate = none) : s.activeChoice = s.channelCandidate.map .channel := by
  cases h : s.channelCandidate with
  | none => rw [activeChoice_last hu (middleClasses_none h hr), he, hp]; rfl
  | some c => exact activeChoice_middle hu (middleClasses_channel h (.inr hr))

theorem soonest_congr {s t : State} (h : t.duties = s.duties) (l : List (Fin 32)) : t.soonest l = s.soonest l := by
  induction l with
  | nil => rfl
  | cons n l ih => simp only [State.soonest, ih, duty_of_duties h]

/-- Outside ACTIVE no channel is a candidate (R125, R126). -/
theorem choice_setChannel {s : State} (h : s.busState ≠ .active) (c : Fin 16) (r : ChannelRec) :
    (s.setChannel c r).choice = s.choice := by
  unfold State.choice
  simp only [setChannel_reads]
  cases hs : s.busState with
  | active => exact absurd hs h
  | draining => rfl
  | excursion => rfl
  | quiet => rfl
  | waking => rfl

namespace State.Rests

variable {s : State} {c : Fin 16} {r : ChannelRec}

/-- Where nothing is to be done the decisions do nothing. -/
theorem decisions (h : s.Rests) : s.decisions = s := by
  have excursion : s.startExcursion = s := if_neg fun ⟨quiet, calls⟩ => by simp [h.excursion quiet] at calls
  have stays : s.arbitrate = s := by
    rcases arbitrate_cases s with ⟨_, e⟩ | ⟨free, hs, others⟩
    · exact e
    · obtain ⟨he, hg⟩ := (busFree_iff s).mp free
      obtain ⟨none, undue⟩ := h.decision he hg hs
      rcases others with ⟨k, choice, _⟩ | ⟨_, b, due, _⟩ | ⟨_, _, e⟩
      · simp [none] at choice
      · simp [undue] at due
      · exact e
  rw [State.decisions, excursion, stays, disposeHeads_of_online h.head]

theorem react (h : s.Rests) : s.react = s := by
  rw [State.react, haltDownChannels_of_online h.triggers, disposeHeads_of_online h.head, h.decisions]

/-- Where a decision in ACTIVE had nothing to do, no channel held a trigger, and with another record of one channel only the
channel class has a candidate to present. -/
theorem decides_setChannel (h : s.Rests) (hd : s.decidesInActive) :
    s.requests = [] ∧ (∀ e, s.hasTrigger e = false) ∧
      (s.setChannel c r).activeChoice = (s.setChannel c r).channelCandidate.map .channel := by
  obtain ⟨he, hg, hs, hb⟩ := hd
  have choice : s.activeChoice = none := by simpa [State.choice, hb] using (h.decision he hg hs).1
  obtain ⟨urgent, channels, requests, entry, pullin⟩ := activeChoice_eq_none choice
  have soonest := soonest_congr (t := s.setChannel c r) (s := s) rfl
  have still : (s.setChannel c r).pullinCandidate = .none := by
    rw [← pullin]
    unfold State.pullinCandidate
    rw [soonest]
    rfl
  exact ⟨requests, fun e => eq_false_of_ne_true (List.find?_eq_none.mp channels e (mem_searchOrder s e)),
    activeChoice_of_channels urgent requests entry still⟩

/-- Another record of one channel leaves nothing to do, unless it holds a trigger that halts it or is granted. -/
theorem setChannel (h : s.Rests)
    (hr : r.state = .waiting → r.pending ≠ 0 →
      s.online (s.descriptor r.currentSlot.toNat).target = true ∧ ¬s.decidesInActive) :
    (s.setChannel c r).Rests := by
  refine ⟨triggersOnline_setChannel h.triggers fun hw hp => (hr hw hp).1, h.head, h.excursion, fun he hg hs => ?_⟩
  obtain ⟨unchosen, undue⟩ := h.decision he hg hs
  refine ⟨?_, undue⟩
  by_cases hb : s.busState = .active
  · have decides : s.decidesInActive := ⟨he, hg, hs, hb⟩
    obtain ⟨_, untriggered, choice⟩ := h.decides_setChannel (c := c) (r := r) decides
    have absent : (s.setChannel c r).channelCandidate = none := channelCandidate_of_none fun e => by
      refine eq_false_of_ne_true fun trigger => ?_
      by_cases hc : e = c
      · rw [hasTrigger_iff, channel_setChannel, if_pos hc] at trigger
        exact (hr trigger.1 trigger.2).2 decides
      · rw [hasTrigger_iff, channel_setChannel, if_neg hc, ← hasTrigger_iff, untriggered e] at trigger
        cases trigger
    have active : (s.setChannel c r).choice = (s.setChannel c r).activeChoice := by simp [State.choice, hb]
    rw [active, choice, absent]
    rfl
  · exact (choice_setChannel hb c r).trans unchosen

end State.Rests

section
variable {s : State} {c : Fin 16} {r : ChannelRec}

theorem setChannel_setChannel (s : State) (c : Fin 16) (q r : ChannelRec) :
    (s.setChannel c q).setChannel c r = s.setChannel c r := by
  simp [State.setChannel]

/-- A trigger for a target that is not ONLINE halts its channel, and nothing more is to be done (R84). -/
theorem react_setChannel_down (h : s.Rests) (hw : r.state = .waiting) (hp : r.pending ≠ 0)
    (down : s.online (s.descriptor r.currentSlot.toNat).target = false) :
    (s.setChannel c r).react = (s.setChannel c r).setChannel c { r with haltCause := .targetDown }.halt := by
  have rests : (s.setChannel c { r with haltCause := .targetDown }.halt).Rests :=
    h.setChannel fun halted => by cases halted
  have own : (s.setChannel c r).channel c = r := by simp
  have halts : (s.setChannel c r).haltDownChannels = s.setChannel c { r with haltCause := .targetDown }.halt := by
    obtain ⟨frame, channel⟩ := haltDownChannels_reads (s.setChannel c r)
    have halted : (s.setChannel c r).hasTrigger c = true ∧
        (s.setChannel c r).online ((s.setChannel c r).currentDescriptor c).target = false := by
      rw [hasTrigger_iff, State.currentDescriptor, own]
      exact ⟨⟨hw, hp⟩, down⟩
    have channels : (s.setChannel c r).haltDownChannels.channels =
        (s.setChannel c { r with haltCause := .targetDown }.halt).channels := channels_ext fun e => by
      by_cases hc : e = c
      · rw [hc, channel c, if_pos halted, own, channel_setChannel, if_pos rfl]
      · have other : (s.setChannel c r).channel e = s.channel e := by simp [hc]
        rw [channel e, if_neg, other, channel_setChannel, if_neg hc]
        rw [hasTrigger_iff, State.currentDescriptor, other, ← hasTrigger_iff]
        exact fun ⟨trigger, off⟩ => Bool.false_ne_true (off.symm.trans (h.triggers e trigger))
    rw [frame, channels]
    rfl
  rw [setChannel_setChannel, State.react, halts, disposeHeads_of_online rests.head, rests.decisions]

/-- A trigger for an ONLINE target is granted at once where the arbiter has a decision to take in ACTIVE (R119). -/
theorem react_setChannel_granted (h : s.Rests) (hw : r.state = .waiting) (hp : r.pending ≠ 0)
    (up : s.online (s.descriptor r.currentSlot.toNat).target = true) (hd : s.decidesInActive) :
    (s.setChannel c r).react = (s.setChannel c r).grantChannel c := by
  obtain ⟨requests, untriggered, choice⟩ := h.decides_setChannel (c := c) (r := r) hd
  obtain ⟨he, hg, hs, hb⟩ := hd
  have triggers : (s.setChannel c r).triggersOnline := triggersOnline_setChannel h.triggers fun _ _ => up
  have trigger : (s.setChannel c r).hasTrigger c = true := by
    rw [hasTrigger_iff, channel_setChannel, if_pos rfl]
    exact ⟨hw, hp⟩
  have candidate : (s.setChannel c r).channelCandidate = some c := channelCandidate_of_least trigger fun e other => by
    by_cases hc : e = c
    · rw [hc]
    · rw [hasTrigger_iff, channel_setChannel, if_neg hc, ← hasTrigger_iff, untriggered e] at other
      cases other
  have granted : (s.setChannel c r).arbitrate = (s.setChannel c r).grantChannel c :=
    arbitrate_of_activeChoice (k := .channel c) he hg hs hb (by rw [choice, candidate]; rfl)
  have free : (s.setChannel c r).engine ≠ .granted := by simp [he]
  have empty : ((s.setChannel c r).grantChannel c).headOnline := fun q rest hq => by
    rw [grantChannel_frame] at hq
    cases hq.symm.trans requests
  rw [react_of_ne free, settle_active free hb triggers h.head, granted, disposeHeads_of_online empty]

end

/-! ## An edge (R74, R75) -/

theorem getLsbD_setLine (s : State) (k j : Fin 8) (level : Bool) :
    (s.setLine k level).lineLevel.getLsbD j.val = if j = k then level else s.lineLevel.getLsbD j.val := by
  have bit : ((1 : Byte) <<< k.val).getLsbD j.val = decide (j = k) := by
    revert k j
    decide
  cases level
  · show (s.lineLevel &&& ~~~((1 : Byte) <<< k.val)).getLsbD j.val = _
    rw [BitVec.getLsbD_and, BitVec.getLsbD_not, bit]
    by_cases hj : j = k <;> simp [hj]
  · show (s.lineLevel ||| (1 : Byte) <<< k.val).getLsbD j.val = _
    rw [BitVec.getLsbD_or, bit]
    by_cases hj : j = k <;> simp [hj]

/-- Settles O11: the channels that take the arrival of an edge, and the end of one arrival. -/
theorem edgeArrivesAtListeningChannels : Obligations.EdgeArrivesAtListeningChannels := by
  refine ⟨fun s k level hp => ⟨fun same => ?_, fun edge => ?_⟩, fun s c => ?_⟩
  · exact if_neg fun h => h.2 same
  · obtain ⟨nodup, listens⟩ := arrivalOrder_spec (s.setLine k level) k
    have row : exec (.triggerLineEdge k level) s = .next (if s.edgeSelected k level then (s.setLine k level).edgeArrivals k
        else (s.setLine k level).settle) := if_pos ⟨hp, edge⟩
    rw [row]
    by_cases selected : s.edgeSelected k level = true
    · rw [if_pos selected]
      refine ⟨{ s.setLine k level with freeCount := s.freeCount + 1 }, (s.setLine k level).arrivalOrder k,
        by rw [State.edgeArrivals]; rfl, rfl, fun j => getLsbD_setLine s k j level, nodup, fun c => ?_⟩
      rw [listens, ChannelRec.listens, beq_iff_eq]
      exact (and_iff_right selected).symm
    · rw [if_neg selected]
      exact ⟨s.setLine k level, [], by rw [List.foldl_nil], rfl, fun j => getLsbD_setLine s k j level, List.nodup_nil, fun c =>
        ⟨fun h => (by cases h), fun ⟨h, _⟩ => absurd h selected⟩⟩
  · intro a r waits up decides
    have slot : r.currentSlot = (s.channel c).currentSlot := (arrive_cases _).1
    have target : s.online (s.descriptor r.currentSlot.toNat).target = up := by rw [slot]; rfl
    refine ⟨rfl, channel_arriveAt s c, fun h => react_of_ne (s := a) h, fun still => ?_⟩
    have rests : s.Rests := still ▸ rests_react s
    refine ⟨fun hn => ?_, fun hw hup => ?_, fun hw hup hd => ?_, fun hw hup hd => ?_⟩
    · exact (rests.setChannel fun hs hp => absurd ⟨hs, hp⟩ hn).react
    · exact react_setChannel_down rests hw.1 hw.2 (target.trans hup)
    · exact react_setChannel_granted rests hw.1 hw.2 (target.trans hup) hd
    · exact (rests.setChannel fun _ _ => ⟨target.trans hup, hd⟩).react

end Sys2Proof.Machine
end

/-!
PROOF. Host requests, completions and the plain registers (chapters 5 and 10): what SUBMIT checks and appends (R104),
how FLUSH_HOST and CPL_POP move the queues and the slots (R103, R111, R112), and the one-byte registers of the window
(R176, R179).
-/

section
namespace Sys2Proof.Machine

open Sys2Proof

/-! ## SUBMIT (R104) -/

section
variable {s : State}

/-- The checks of R104, step 1, on the bytes of the staging area. -/
theorem stagingValid_iff : s.stagingValid = true ↔
    s.staging[1].toNat ≤ 15 ∧ (s.staging[2] = 0 ∨ s.staging[2] = 1) ∧ 1 ≤ s.staging[4].toNat ∧
      s.staging[4].toNat ≤ 16 ∧ 0x0D00 ≤ (s.staging[6] ++ s.staging[5]).toNat ∧
      (s.staging[6] ++ s.staging[5]).toNat + s.staging[4].toNat ≤ 0x2000 := by
  simp only [State.stagingValid, Bool.and_eq_true, Bool.or_eq_true, decide_eq_true_eq, beq_iff_eq, and_assoc]
  rfl

theorem ownSubmit_badOperand (h : ¬s.stagingValid = true) : s.ownSubmit = ⟨s, some .badOperand⟩ := if_neg h

theorem ownSubmit_noSlot (h : s.stagingValid = true) (free : s.slotsFree = 0) : s.ownSubmit = ⟨s, some .noSlot⟩ :=
  (if_pos h).trans (if_pos free)

theorem ownSubmit_accepted (h : s.stagingValid = true) (free : s.slotsFree ≠ 0) :
    s.ownSubmit = ⟨{ s with requests := s.requests ++ [s.stagedRequest] }, some .ok⟩ :=
  (if_pos h).trans (if_neg free)

end

/-- Settles O23, by the order of the checks. -/
theorem submitChecksAndAppends : Obligations.SubmitChecksAndAppends := by
  intro s hp hu u address passes
  let w : State := { s with cmdCode := 0x30 }
  have taken : ∀ (t : State) (x : Result), w.ownSubmit = ⟨t, some x⟩ →
      exec .submit s = .next { t with cmdResult := x.code, commandDone := true }.settle :=
    fun t x h => command_answered hp hu h
  have valid : w.stagingValid = true ↔ passes := stagingValid_iff
  refine ⟨fun h => taken w .badOperand ?_, fun h full => taken w .noSlot ?_,
    fun h free => ⟨s.stagedRequest, taken { w with requests := s.requests ++ [s.stagedRequest] } .ok ?_, rfl, ?_,
      beq_iff_eq, rfl, rfl, rfl, rfl⟩⟩
  · exact ownSubmit_badOperand fun e => h (valid.mp e)
  · exact ownSubmit_noSlot (valid.mpr h) full
  · exact ownSubmit_accepted (valid.mpr h) free
  · exact Nat.mod_eq_of_lt (Nat.lt_succ_of_le h.1)

/-! ## FLUSH_HOST and CPL_POP (R111, R112) -/

section
variable {s : State}

theorem slotsFree_flushRequests : s.flushRequests.slotsFree = s.slotsFree :=
  congrArg (8 - ·) (slotsHeld_flushRequests s)

theorem popCompletion_nil (h : s.completions = []) : s.popCompletion = s := by
  unfold State.popCompletion
  rw [h, List.tail_nil, ← h]

theorem popCompletion_cons {c : Completion} {rest : List Completion} (h : s.completions = c :: rest) :
    s.popCompletion = { s with completions := rest } := by
  unfold State.popCompletion
  rw [h, List.tail_cons]

/-- Each completion record holds a slot, which the record that leaves frees (R103). -/
theorem slotsHeld_popCompletion (h : s.completions ≠ []) : s.popCompletion.slotsHeld + 1 = s.slotsHeld := by
  have leaves : s.completions.tail.length + 1 = s.completions.length := by
    rw [List.length_tail, Nat.sub_add_cancel (List.length_pos_of_ne_nil h)]
  exact (Nat.add_assoc _ _ _).trans (congrArg (s.requests.length + (if s.inFlight.isSome then 1 else 0) + ·) leaves)

theorem slotsFree_popCompletion (h : s.completions ≠ []) (held : s.slotsHeld ≤ 8) :
    s.popCompletion.slotsFree = s.slotsFree + 1 := by
  have leaves := slotsHeld_popCompletion h
  show 8 - s.popCompletion.slotsHeld = 8 - s.slotsHeld + 1
  omega

end

/-- Settles O24: the flushed queue's records take the slots that the requests held, and a record that leaves frees
its own. -/
theorem flushAndPopMoveTheQueues : Obligations.FlushAndPopMoveTheQueues := by
  intro s hp
  refine ⟨fun hu => ?_, fun v => ?_⟩
  · let w : State := { s with cmdCode := 0x31 }
    have taken : exec .flushHost s = .next { w.flushRequests with cmdResult := 0, commandDone := true }.settle :=
      command_answered (x := .ok) hp hu rfl
    exact ⟨_, taken, rfl, slotsFree_flushRequests (s := w), rfl⟩
  · have popped : exec (.cplPop v) s = .next s.popCompletion := windowWrite_of_running hp 0x1C
    refine ⟨fun h => by rw [popped, popCompletion_nil h], fun c rest h held => ?_⟩
    exact ⟨_, popped, popCompletion_cons h, slotsFree_popCompletion (by simp [h]) held⟩

/-! ## Reads of the plain registers (R176) -/

section
variable {s : State}

/-- While the part runs, a read sent as an access (log entry 16) reaches the register at its offset. -/
theorem exec_read (hp : s.phase = .running) (offset : BitVec 6) :
    exec (.accessDuringClear (.read offset)) s = .next (s.readRunning offset) :=
  congrArg Host.Outcome.next (if_pos hp)

theorem toNat_status (hp : s.phase = .running) :
    s.status.toNat = 1 + (if s.unit = .pending then 2 else 0) + 4 * s.busState.code.toNat := by
  have fields (u : UnitState) (b : BusState) : (flagBit true 0 ||| flagBit (u == .pending) 1 ||| (b.code <<< 2)).toNat =
      1 + (if u = .pending then 2 else 0) + 4 * b.code.toNat := by
    cases u <;> cases b <;> rfl
  rw [State.status, hp]
  exact fields s.unit s.busState

theorem readRunning_staging (k : Fin 8) :
    s.readRunning (0x10 + BitVec.ofNat 6 k.val) = s.answer s.staging[k] := by
  fin_cases k <;> rfl

theorem readRunning_completionHead (k : Fin 4) :
    s.readRunning (0x18 + BitVec.ofNat 6 k.val) = s.answer (s.completionHead k.val) := by
  fin_cases k <;> rfl

theorem completionHead_nil (h : s.completions = []) (k : Nat) : s.completionHead k = 0 := by
  unfold State.completionHead
  rw [h]

theorem completionHead_cons {c : Completion} {rest : List Completion} (h : s.completions = c :: rest) :
    s.completionHead 0 = c.tag ∧ s.completionHead 1 = c.status.code ∧ s.completionHead 2 = c.bytes ∧
      s.completionHead 3 = c.attempts := by
  unfold State.completionHead
  rw [h]
  exact ⟨rfl, rfl, rfl, rfl⟩

theorem slotsFree_eq : s.slotsFree =
    8 - (s.requests.length + (if s.inFlight = none then 0 else 1) + s.completions.length) := by
  unfold State.slotsFree
  cases s.inFlight <;> rfl

/-- Every row of the window's read map but the last is at an offset in use. -/
theorem readRunning_unused {offset : BitVec 6}
    (h : offset.toNat ∈ [0x03, 0x07, 0x0B, 0x0E, 0x0F, 0x1C, 0x1F, 0x23, 0x29] ∨ 0x33 ≤ offset.toNat) :
    s.readRunning offset = s.answer 0 := by
  unfold State.readRunning
  split
  case h_43 => rfl
  all_goals simp [*] at h

end

/-! ## Writes of the plain registers (R176) -/

section
variable {s : State} {v : Byte}

theorem writeRunning_staging (k : Fin 8) :
    s.writeRunning (0x10 + BitVec.ofNat 6 k.val) v = { s with staging := s.staging.set k v } := by
  fin_cases k <;> rfl

/-- An offset without a row of its own that is neither CMD_OPERAND nor a staging byte takes no write. -/
theorem writeRunning_ignored {offset : BitVec 6} (row : offset ∉ offsetsWithOwnWriteRow) (operand : offset ≠ 0x04)
    (staging : offset.toNat < 0x10 ∨ 0x17 < offset.toNat) : s.writeRunning offset v = s := by
  simp only [offsetsWithOwnWriteRow, List.mem_cons, ← BitVec.toNat_inj, ne_eq] at row operand
  unfold State.writeRunning
  split
  case h_28 => rfl
  all_goals simp_all

end

/-- Settles O32: each read and write by the register at its offset. -/
theorem plainRegisterReadsAndWrites : Obligations.PlainRegisterReadsAndWrites := by
  intro s v hp answers busStateCode
  have reads {offset : BitVec 6} {b : Byte} (h : s.readRunning offset = s.answer b) : answers offset b :=
    (exec_read hp offset).trans (congrArg Host.Outcome.next h)
  have head (k : Fin 4) {b : Byte} (hb : s.completionHead k.val = b) : answers (0x18 + BitVec.ofNat 6 k.val) b :=
    reads ((readRunning_completionHead k).trans (congrArg s.answer hb))
  have writes (offset : BitVec 6) : exec (.registerWrite offset v) s = .next (s.writeRunning offset v) :=
    windowWrite_of_running hp offset
  have code : s.busState.code.toNat = busStateCode := by
    simp only [busStateCode]
    cases s.busState <;> rfl
  refine ⟨reads rfl, code ▸ toNat_status hp, reads rfl, reads rfl, reads rfl,
    fun k => reads (readRunning_staging k), fun empty k hk => ?_, fun c rest h => ?_, reads rfl, ?_, reads rfl,
    reads rfl, reads rfl, reads rfl, fun offset unused => reads (readRunning_unused unused), fun r => ⟨rfl, rfl⟩, rfl,
    rfl, writes 0x04, fun k => ?_, fun offset row operand staging => ?_, windowWrite_of_running hp,
    windowWrite_of_running hp 0x0A, windowWrite_of_running hp 0x1C, fun offset _ => writes offset⟩
  · exact head ⟨k, hk⟩ (completionHead_nil empty k)
  · obtain ⟨tag, status, bytes, attempts⟩ := completionHead_cons h
    exact ⟨head 0 tag, head 1 status, head 2 bytes, head 3 attempts⟩
  · exact reads (congrArg (fun n => s.answer (BitVec.ofNat 8 n)) slotsFree_eq)
  · rw [writes, writeRunning_staging]
  · rw [writes, writeRunning_ignored row operand staging]

end Sys2Proof.Machine
end

/-!
SUPPORT. The bus keeps one owner: every act leaves the bus engine at work exactly under a grant, and no grant in QUIET or
WAKING (R116).
-/

section
namespace Sys2Proof.Machine

open Sys2Proof

/-! ## The bus engine at work -/

/-- A frame on the bus is work of the bus engine. -/
theorem engineWorks_of_frame {s : State} {f : Frame} (h : s.frameOnBus = some f) : s.engineWorks = true := by
  unfold State.frameOnBus at h
  split at h
  · rename_i he
    simp [State.engineWorks, he]
  · rename_i he
    simp [State.engineWorks, he]
  · cases h

/-- The race rewrites the bytes of an attempt, which goes on (R65). -/
theorem engineWorks_raceWrite (s : State) (a : Nat) (v : Byte) : (s.raceWrite a v).engineWorks = s.engineWorks := by
  unfold State.raceWrite
  split
  · rename_i t he
    split
    · simp [State.engineWorks, he]
    · rfl
  · rfl

theorem engineWorks_of_busFree {s : State} (h : s.busFree = true) : s.engineWorks = false := by
  simp [State.engineWorks, ((busFree_iff s).mp h).1]

/-- Without a frame on the bus, a soft reset ends the work the bus engine carries (R128). -/
theorem engineWorks_softResetBus {s : State} (h : s.frameOnBus = none) : s.softResetBus.engineWorks = false := by
  unfold State.softResetBus
  cases he : s.engine with
  | attempt a => simp [State.frameOnBus, he] at h
  | retryGap a => simp [State.frameOnBus, he] at h
  | _ => rfl

theorem engine_softResetEffects (s : State) : s.softResetEffects.engine = s.softResetRecords.softResetBus.engine := by
  rw [softResetEffects_eq]
  exact engine_softResetTail _

theorem engineWorks_of_engine {s t : State} (h : t.engine = s.engine) : t.engineWorks = s.engineWorks := by
  unfold State.engineWorks
  rw [h]

theorem engineWorks_softResetEffects {s : State} (h : s.frameOnBus = none) : s.softResetEffects.engineWorks = false := by
  rw [engineWorks_of_engine (engine_softResetEffects s)]
  exact engineWorks_softResetBus ((frameOnBus_of_engine (engine_softResetRecords s)).trans h)

/-! ## One owner (R116) -/

section
variable {s t : State}

theorem busKept_of_idle (hg : t.grant = none) (he : t.engineWorks = false) : t.busKept :=
  ⟨by rw [hg, he]; rfl, fun _ => hg⟩

/-- Work under a grant, in a bus state that takes work. -/
theorem busKept_of_granted (hg : t.grant.isSome = true) (he : t.engineWorks = true)
    (hb : ¬(t.busState = .quiet ∨ t.busState = .waking)) : t.busKept :=
  ⟨hg.trans he.symm, fun h => absurd h hb⟩

theorem engineWorks_of_grant {g : Grant} (hs : s.busKept) (hg : s.grant = some g) : s.engineWorks = true := by
  rw [← hs.1, hg]
  rfl

theorem grant_of_not_engineWorks (hs : s.busKept) (he : s.engineWorks = false) : s.grant = none :=
  Option.isNone_iff_eq_none.mp (Option.isSome_eq_false_iff.mp (hs.1.trans he))

/-- The work goes on: the bus engine still carries it, under a grant, in the same bus state. -/
theorem busKept_of_works (hs : s.busKept) (h : s.engineWorks = true) (hg : t.grant.isSome = true)
    (he : t.engineWorks = true) (hb : t.busState = s.busState) : t.busKept := by
  refine busKept_of_granted hg he fun still => ?_
  have ungranted : s.grant = none := hs.2 (hb ▸ still)
  simp [← hs.1, ungranted] at h

/-- The engine passes from work to work under the same grant. -/
theorem busKept_of_same_grant (hs : s.busKept) (h : s.engineWorks = true) (hg : t.grant = s.grant)
    (he : t.engineWorks = true) (hb : t.busState = s.busState) : t.busKept :=
  busKept_of_works hs h (by rw [hg, hs.1, h]) he hb

/-- A granted channel's unit goes on to its target check, or has ended with its grant (R89). -/
theorem busKept_grantChannel (c : Fin 16) (hb : ¬(s.busState = .quiet ∨ s.busState = .waking)) :
    (s.grantChannel c).busKept := by
  rcases grantChannel_cases s c with ⟨_, e⟩ | ⟨_, e⟩ <;> rw [e]
  · exact busKept_of_granted rfl rfl hb
  · rw [unitEnd_frame]
    exact busKept_of_idle rfl rfl

/-- Work is taken only in a bus state that chooses some, and then holds the bus (R116, R120). -/
theorem busKept_take {k : Candidate} (hc : s.choice = some k) : (s.take k).busKept := by
  have active : ¬(s.busState = .quiet ∨ s.busState = .waking) := fun h => by
    rw [choice_eq_none h] at hc
    cases hc
  cases k with
  | duty n => exact busKept_of_granted rfl rfl active
  | channel c => exact busKept_grantChannel c active
  | host r =>
    rw [State.take, grantHost_frame]
    exact busKept_of_granted rfl rfl active

end

/-- Every act keeps the bus to one owner, and without one in QUIET and WAKING. -/
theorem Act.busKept {s t : State} (h : Act s t) (hs : s.busKept) : t.busKept := by
  have works {g : Grant} : s.grant = some g → s.engineWorks = true := engineWorks_of_grant hs
  have ungranted : s.engineWorks = false → s.grant = none := grant_of_not_engineWorks hs
  cases h with
  | quiet e => rw [e]; exact hs
  -- the work goes on
  | startsTransaction n p hg ho => exact busKept_of_same_grant hs (works hg) rfl rfl rfl
  | startsUnitFrame c k hg ho => exact busKept_of_same_grant hs (works hg) rfl rfl rfl
  | startsRequestFrame r hg hi ho => exact busKept_of_same_grant hs (works hg) rfl rfl rfl
  | waitsToRetry a h => exact busKept_of_same_grant hs (by simp [State.engineWorks, h]) rfl rfl rfl
  | retries a h => exact busKept_of_same_grant hs (by simp [State.engineWorks, h]) rfl rfl rfl
  | counts a o h => exact busKept_of_same_grant hs (by simp [State.engineWorks, h]) rfl rfl rfl
  | nextPosition n p j k hg he hl => exact busKept_of_works hs (works hg) rfl rfl rfl
  | acknowledges c j hg he => exact busKept_of_works hs (works hg) rfl (works hg) rfl
  | race a v =>
    have goesOn := engineWorks_raceWrite s a v
    rw [raceWrite_frame] at goesOn ⊢
    exact ⟨hs.1.trans goesOn.symm, hs.2⟩
  -- the grant ends with its work
  | cuts n h => exact busKept_of_idle rfl rfl
  | runSucceeds n p hg => rw [runSucceeded_frame]; exact busKept_of_idle rfl rfl
  | runFails n x p hg => rw [runFailed_frame]; exact busKept_of_idle rfl rfl
  | unitEnds c x k hg => rw [unitEnd_frame]; exact busKept_of_idle rfl rfl
  | requestEnds r c hg hi => exact busKept_of_idle rfl rfl
  | grantEnds => exact busKept_of_idle rfl rfl
  -- decisions
  | takes k hf hr hc => exact busKept_take hc
  | broadcasts b h =>
    have idle : s.engineWorks = false := by
      rcases h with h | h
      · simp [State.engineWorks, h]
      · exact engineWorks_of_busFree h
    exact busKept_of_idle (ungranted idle) rfl
  | idles e h he => exact busKept_of_idle (ungranted h) (by rcases he with rfl | rfl <;> rfl)
  | busMoves b h =>
    refine ⟨hs.1, fun still => ?_⟩
    rcases h still with quiet | waking | idle
    · exact hs.2 (.inl quiet)
    · exact hs.2 (.inr waking)
    · exact ungranted idle
  -- resets
  | softResets h =>
    have grant : s.softResetEffects.grant = none := by
      obtain ⟨_, _, _, e⟩ := softResetEffects_frame s
      rw [e]
    exact busKept_of_idle grant (engineWorks_softResetEffects h)
  | fullResets => rw [fullReset_frame]; exact busKept_of_idle rfl rfl
  | clears lines h => exact busKept_of_idle rfl rfl
  -- acts on neither the grant, the bus engine nor the bus state
  | hostByte a v h => rw [putHostByte_frame]; exact hs
  | stores a o data h => rw [storeReceived_frame]; exact hs
  | expires n h => rw [expireDuty_frame]; exact hs
  | disposes => rw [disposeHeads_frame]; exact hs
  | _ => exact hs

/-- A bus with one owner carries no frame in QUIET or WAKING. -/
theorem frameOnBus_of_still {s : State} (hs : s.busKept) (h : s.busState = .quiet ∨ s.busState = .waking) :
    s.frameOnBus = none := by
  by_contra frame
  obtain ⟨f, hf⟩ := Option.ne_none_iff_exists'.mp frame
  have works := hs.1.trans (engineWorks_of_frame hf)
  simp [hs.2 h] at works

/-- Settles O58: each act keeps one owner and frames to ONLINE targets; one owner leaves no frame in QUIET or WAKING. -/
theorem busKeepsOneOwnerAndOnlineTargets : Obligations.BusKeepsOneOwnerAndOnlineTargets := fun _ _ h =>
  ⟨fun hs =>
    have kept := step_keeps (P := State.busKept) Act.busKept h hs
    ⟨kept, frameOnBus_of_still kept⟩,
  step_keeps (P := State.framesOnline) Act.framesOnline h⟩

end Sys2Proof.Machine
end

/-!
SUPPORT. The decision on a free bus in DRAINING, EXCURSION, WAKING and QUIET (R116, R125, R126, R165 to R169).
-/

section
namespace Sys2Proof.Machine

open Sys2Proof

/-! ## Freshening, draining and calls for an excursion (R55, R165, R167) -/

section
variable {s : State}

theorem eligible_of_down {n : Fin 32} (h : s.online (s.dutyTarget n) = false) : s.eligible n = false := by
  simp [State.eligible, h]

theorem freshens_iff (s : State) (n : Fin 32) : s.freshens n = true ↔
    (s.duty n).state = .armed ∧ s.eligible n = true ∧ (s.duty n).stale = true := by
  simp [State.freshens, and_assoc]

theorem firstFreshening_of_least {n : Fin 32} (hn : s.freshens n = true) (h : ∀ m, m < n → s.freshens m = false) :
    s.firstFreshening = some n := by
  have ascending : allDuties.Pairwise (fun a b => a.val < b.val) := by decide
  refine find?_of_least_rank ascending (mem_allDuties n) hn fun m _ hm => ?_
  by_contra less
  simp [h m (Nat.lt_of_not_le less)] at hm

theorem firstFreshening_of_none (h : ∀ n, s.freshens n = false) : s.firstFreshening = none :=
  List.find?_eq_none.mpr fun n _ => by simp [h n]

theorem drained_iff (s : State) : s.drained = true ↔
    (∀ n ∈ s.dueQueue, s.online (s.dutyTarget n) = false) ∧
      ∀ n, (s.duty n).stale = true → s.online (s.dutyTarget n) = false := by
  simp [State.drained, mem_allDuties]

theorem callsExcursion_iff (s : State) : s.callsExcursion = true ↔
    ∃ n ∈ s.dueQueue, s.eligible n = true ∧ s.slackOf n = 0 ∧ (s.duty n).quietPolicy = 1 := by
  simp [State.callsExcursion, DutyRec.wakes, and_assoc]

/-! ## The three ends of a decision -/

theorem arbitrate_of_choice {k : Candidate} (he : s.engine = .free) (hg : s.grant = none)
    (hs : s.softResetPending = false) (h : s.choice = some k) : s.arbitrate = s.take k := by
  unfold State.arbitrate
  rw [if_pos ⟨(busFree_iff s).mpr ⟨he, hg⟩, hs⟩, h]

theorem arbitrate_of_broadcastDue {b : Broadcast} (he : s.engine = .free) (hg : s.grant = none)
    (hs : s.softResetPending = false) (hc : s.choice = none) (hb : s.broadcastDue = some b) :
    s.arbitrate = s.startBroadcast b := by
  unfold State.arbitrate
  rw [if_pos ⟨(busFree_iff s).mpr ⟨he, hg⟩, hs⟩, hc, hb]

theorem arbitrate_of_nothing_due (hc : s.choice = none) (hb : s.broadcastDue = none) : s.arbitrate = s := by
  unfold State.arbitrate
  rw [hc, hb]
  exact ite_self s

/-! ## What each bus state chooses -/

theorem choice_draining (hb : s.busState = .draining) : s.choice = (s.firstEntry.or s.firstFreshening).map .duty := by
  cases h : s.firstEntry <;> simp [State.choice, hb, h]

theorem choice_excursion (hb : s.busState = .excursion) : s.choice = s.firstEntry.map .duty := by
  simp [State.choice, hb]

/-- In DRAINING and in EXCURSION the first entry goes first (R125, R126). -/
theorem choice_firstEntry {n : Fin 32} (hb : s.busState = .draining ∨ s.busState = .excursion)
    (h : s.firstEntry = some n) : s.choice = some (.duty n) := by
  rcases hb with hb | hb
  · rw [choice_draining hb, h]
    rfl
  · rw [choice_excursion hb, h]
    rfl

/-- Where no channel halts, no head is disposed of, no check is to come and no excursion is called, the end of an event is
the decision and the disposal behind it. -/
theorem settle_of_nothing_first (he : s.engine ≠ .granted)
    (hc : ∀ c, s.hasTrigger c = true → s.online (s.currentDescriptor c).target = true)
    (hr : ∀ r rest, s.requests = r :: rest → s.online r.target = true)
    (hx : s.busState = .quiet → s.callsExcursion = false) : s.settle = s.arbitrate.disposeHeads := by
  have excursion : ¬(s.busState = .quiet ∧ s.callsExcursion = true) := fun ⟨quiet, calls⟩ => by
    simp [hx quiet] at calls
  unfold State.settle State.decisions State.startExcursion
  rw [haltDownChannels_of_online hc, disposeHeads_of_online hr, firstCheck_of_ne he, if_neg excursion]

/-- The gap ends on a free bus: from there the event ends (R119). -/
theorem exec_gapEnd (he : s.engine = .free) : exec .gapEnd { s with engine := .gap } = .next s.settle := by
  have free : { s with engine := BusEngine.free } = s := by rw [← he]
  show execGapEnd { s with engine := .gap } = _
  rw [execGapEnd, if_pos rfl]
  exact congrArg (fun u : State => Host.Outcome.next u.settle) free

end

/-- Settles O40: the gap's end, the start of an excursion, and the decision bus state by bus state. -/
theorem otherOrdersOfTheArbiter : Obligations.OtherOrdersOfTheArbiter := by
  intro s he hg hs fresh idle urgentWake
  have grants {n : Fin 32} (h : s.choice = some (.duty n)) : s.arbitrate = s.grantDuty n := arbitrate_of_choice he hg hs h
  have sends {b : Broadcast} := arbitrate_of_broadcastDue (b := b) he hg hs
  have freshens (n : Fin 32) : s.freshens n = true ↔ fresh n := freshens_iff s n
  have notFresh {n : Fin 32} (h : ¬fresh n) : s.freshens n = false := by
    rw [← Bool.not_eq_true, freshens]
    exact h
  have noFresh (h : ∀ n, ¬fresh n) : s.firstFreshening = none := firstFreshening_of_none fun n => notFresh (h n)
  refine ⟨fun hc hr hx => ?_, fun quiet calls => if_pos ⟨quiet, (callsExcursion_iff s).mpr calls⟩,
    fun hb before n after hq hbefore hn => grants (choice_firstEntry hb (firstEntry_of_split hq hbefore hn)),
    fun draining empty n hn least => ?_, fun draining entriesDown staleDown => ?_, fun draining empty unfresh held => ?_,
    fun excursion empty => ?_, fun waking wait => ?_, fun waking wait => ?_, fun quiet => ?_⟩
  · rw [exec_gapEnd he, settle_of_nothing_first (by simp [he]) (fun c h => ?_) hr fun quiet => ?_]
    · obtain ⟨waiting, pending⟩ := (hasTrigger_iff s c).mp h
      exact hc c waiting pending
    · rw [← Bool.not_eq_true, callsExcursion_iff]
      exact fun ⟨n, queued, urgent⟩ => hx quiet n queued urgent
  · have first : s.firstFreshening = some n :=
      firstFreshening_of_least ((freshens n).mpr hn) fun m hm => notFresh (least m hm)
    exact grants (by rw [choice_draining draining, firstEntry_of_none empty, first]; rfl)
  · have entries : s.firstEntry = none := firstEntry_of_none fun n hn => eligible_of_down (entriesDown n hn)
    have freshening : s.firstFreshening = none := noFresh fun n ⟨_, eligible, stale⟩ => by
      simp [eligible_of_down (staleDown n stale)] at eligible
    have drained : s.drained = true := (drained_iff s).mpr ⟨entriesDown, staleDown⟩
    exact sends (by rw [choice_draining draining, entries, freshening]; rfl)
      (by simp [State.broadcastDue, draining, drained])
  · have undrained : s.drained = false := by
      rw [← Bool.not_eq_true, drained_iff]
      rintro ⟨entriesDown, staleDown⟩
      rcases held with ⟨n, queued, online⟩ | ⟨n, stale, online⟩
      · simp [entriesDown n queued] at online
      · simp [staleDown n stale] at online
    exact arbitrate_of_nothing_due
      (by rw [choice_draining draining, firstEntry_of_none empty, noFresh unfresh]; rfl)
      (by simp [State.broadcastDue, draining, undrained])
  · have entries := firstEntry_of_none empty
    exact sends (by rw [choice_excursion excursion, entries]; rfl) (by simp [State.broadcastDue, excursion, entries])
  · exact sends (choice_eq_none (.inr waking)) (by simp [State.broadcastDue, waking, wait])
  · exact arbitrate_of_nothing_due (choice_eq_none (.inr waking)) (by simp [State.broadcastDue, waking, wait])
  · exact arbitrate_of_nothing_due (choice_eq_none (.inl quiet)) (by simp [State.broadcastDue, quiet])

end Sys2Proof.Machine
end

/-!
SUPPORT. Retries (R140, R141), and the target table at the outcome of a frame (R144, R152, R153, R157).
-/

section
namespace Sys2Proof.Machine

open Sys2Proof

/-! ## Retries (R140, R141) -/

section
variable {s : State} {a : Attempt} {o : FrameOutcome} {data : List Sample}

/-- The retry gap follows a retried outcome while attempts are left, and nothing is reported (R141). -/
theorem attemptOver_of_retried (ho : o.retried = true) (hc : a.count ≤ a.retryLimit.toNat) :
    s.attemptOver a o data = { s with engine := .retryGap a } :=
  if_pos (by simp [ho, hc])

/-- The last attempt of a frame ends the frame, a SOFT_RESET waiting for it or not (R141, R146). -/
theorem attemptOver_eq_frameOutcome (hl : a.last o) : s.attemptOver a o data = s.frameOutcome a o data := by
  rcases attemptOver_cases s a o data with ⟨ho, hc, _⟩ | ⟨_, e⟩
  · exact absurd ⟨ho, hc⟩ hl
  · exact e

/-- A ready timeout in an attempt that cannot time out leaves the state (log entry 3). -/
theorem exec_readyTimeout_of_not_handshakes (he : s.engine = .attempt a) (hh : a.handshakes = false) :
    exec .readyTimeout s = .next s := by
  have checked : s.firstCheck = s := firstCheck_of_ne (by simp [he])
  show execReadyTimeout s = _
  unfold execReadyTimeout
  simp [checked, he, hh]

/-- The next attempt of the same frame starts behind the retry gap (R141). -/
theorem exec_retryGapEnd (he : s.engine = .retryGap a) :
    exec .retryGapEnd s = .next { s with engine := .attempt (s.newAttempt a.frame (a.count + 1)) } := by
  show execRetryGapEnd s = _
  unfold execRetryGapEnd
  simp only [he]

end

/-- Settles O45: what an attempt reads as it starts, and the four rows of a retry. -/
theorem retriedOutcomesStartTheNextAttempt : Obligations.RetriedOutcomesStartTheNextAttempt := by
  refine ⟨fun s f count => ⟨rfl, rfl, rfl, rfl, rfl, rfl, rfl, rfl, rfl⟩, fun s a =>
    ⟨fun he hc => ?_, fun he hc hk hp => ?_, fun he h => exec_readyTimeout_of_not_handshakes he ?_, exec_retryGapEnd⟩⟩
  · refine ⟨fun status data ho => ?_, fun hk hp => ?_⟩
    · rw [exec_of_endsBy he (.inl ⟨status, rfl, rfl⟩), attemptOver_of_retried ho hc]
    · rw [exec_of_endsBy he (.inr ⟨rfl, rfl, rfl, hk, hp⟩), attemptOver_of_retried rfl hc]
  · have last : a.last .readyTimeout := fun ⟨_, left⟩ => Nat.not_lt.mpr left hc
    rw [exec_of_endsBy he (.inr ⟨rfl, rfl, rfl, hk, hp⟩), attemptOver_eq_frameOutcome last]
  · exact Bool.and_eq_false_iff.mpr (h.imp bne_eq_false_iff_eq.mpr beq_false_of_ne)

/-! ## The target record at an outcome (R144, R152, R153) -/

/-- The retried outcomes are the failures that the target table counts (R141, R152). -/
theorem retried_iff_failure (o : FrameOutcome) :
    o.retried = true ↔ o = .noResponse ∨ o = .readyTimeout ∨ o = .parity := by
  cases o <;> decide

/-- S and sync-needed behind a failed frame: only a WRITE sets the mark (R144). -/
theorem TargetRec.sequence_of_retried (r : TargetRec) (k : FrameKind) {o : FrameOutcome} (h : o.retried = true) :
    r.sequence k o = { r with inSync := r.inSync && decide (k ≠ .write) } := by
  obtain ⟨failed, _⟩ := (outcome_retried_iff o).mp h
  cases k <;> simp [sequence, h, failed]

/-- S and sync-needed behind an answered frame: a WRITE moves S, and an OK SYNC clears the mark (R144). -/
theorem TargetRec.sequence_of_answered (r : TargetRec) (k : FrameKind) {o : FrameOutcome} (h : o.retried = false) :
    r.sequence k o = { r with
      seq := r.seq ^^ decide (k = .write), inSync := r.inSync || decide (k = .sync ∧ o = .ok) } := by
  cases k with
  | write => simp [sequence, h]
  | sync =>
    by_cases ok : o = .ok
    · exact (if_pos ok).trans (by simp [ok])
    · exact (if_neg ok).trans (by simp [ok])
  | read => simp [sequence]

/-- A failure quarantines the target where the count stands at its threshold (R153). -/
theorem TargetRec.quarantine_of_retried (r : TargetRec) {o : FrameOutcome} (h : o.retried = true) :
    r.quarantine o = { r with
      state := if r.consecFails = r.quarantineThreshold then .quarantined else r.state
      noticeQuarantined := r.noticeQuarantined || decide (r.consecFails = r.quarantineThreshold) } := by
  by_cases threshold : r.consecFails = r.quarantineThreshold <;> simp [quarantine, h, threshold]

/-- A failed frame: its count and its cause, sync-needed behind a WRITE, and quarantine at the threshold. -/
theorem TargetRec.outcome_of_retried (r : TargetRec) (k : FrameKind) {o : FrameOutcome} (h : o.retried = true) :
    r.outcome k o = { r with
      consecFails := r.consecFails + 1
      lastFailure := o.condition
      inSync := r.inSync && decide (k ≠ .write)
      state := if r.consecFails + 1 = r.quarantineThreshold then .quarantined else r.state
      noticeQuarantined := r.noticeQuarantined || decide (r.consecFails + 1 = r.quarantineThreshold) } := by
  rw [outcome, count, if_pos h, sequence_of_retried _ k h, quarantine_of_retried _ h]

/-- An answered frame: it is counted, S moves behind a WRITE, and an OK SYNC clears sync-needed. -/
theorem TargetRec.outcome_of_answered (r : TargetRec) (k : FrameKind) {o : FrameOutcome} (h : o.retried = false) :
    r.outcome k o = { r with
      consecFails := 0
      framesCompleted := r.framesCompleted + 1
      seq := r.seq ^^ decide (k = .write)
      inSync := r.inSync || decide (k = .sync ∧ o = .ok) } := by
  rw [outcome, count, if_neg (ne_true_of_eq_false h), sequence_of_answered _ k h, quarantine, if_neg (by simp [h])]

/-- No outcome touches a TARGET_OFFLINE that waits for the frame. -/
theorem TargetRec.offlinePending_outcome (r : TargetRec) (k : FrameKind) (o : FrameOutcome) :
    (r.outcome k o).offlinePending = r.offlinePending := by
  cases h : o.retried with
  | true => rw [r.outcome_of_retried k h]
  | false => rw [r.outcome_of_answered k h]

/-! ## The target file at the end of a frame (R146, R157) -/

/-- The record behind a frame's end: a TARGET_OFFLINE that waited for it has taken the target OFFLINE (R157). -/
def TargetRec.endOffline (r : TargetRec) : TargetRec :=
  { r with state := if r.offlinePending then .offline else r.state, offlinePending := false }

theorem TargetRec.endOffline_of_not_pending {r : TargetRec} (h : r.offlinePending = false) : r.endOffline = r := by
  rw [endOffline, if_neg (ne_true_of_eq_false h), ← h]

theorem target_completeOffline (s : State) (t k : Fin 16) :
    (s.completeOffline t).target k = if k = t then (s.target t).endOffline else s.target k := by
  rcases completeOffline_cases s t with ⟨pending, e⟩ | ⟨pending, e⟩ <;> rw [e]
  · by_cases hk : k = t
    · subst hk
      rw [if_pos rfl, TargetRec.endOffline_of_not_pending pending]
    · simp [hk]
  · refine (target_setTarget ..).trans ?_
    simp [TargetRec.endOffline, pending]

/-- From `s` to `u` a frame has left the bus to a gap, and its requester has touched no target record. -/
def State.LeavesTargets (s u : State) : Prop := u.targets = s.targets ∧ u.engine ≠ .free ∧ u.engine ≠ .granted

namespace State.LeavesTargets

variable {s u : State}

theorem runFailed (n : Fin 32) (cause : Condition) (position : Nat) (h : u.targets = s.targets) :
    s.LeavesTargets (u.runFailed n cause position) := by
  rw [runFailed_frame]
  exact ⟨h, by simp⟩

theorem unitEnd (c : Fin 16) (failure : Condition) (h : u.targets = s.targets) :
    s.LeavesTargets (u.unitEnd c failure) := by
  rw [unitEnd_frame]
  exact ⟨h, by simp⟩

theorem dutyFrameEnd (n : Fin 32) (position : Nat) (f : Frame) (o : FrameOutcome) (data : List Sample)
    (h : u.targets = s.targets) : s.LeavesTargets (u.dutyFrameEnd n position f o data) := by
  unfold State.dutyFrameEnd State.transactionComplete
  simp only
  split_ifs
  · exact runFailed _ _ _ h
  · exact ⟨h, by simp⟩
  · exact runFailed _ _ _ h
  · rw [show u.runSucceeded n = _ from runSucceeded_frame u n]
    exact ⟨h, by simp⟩
  · exact ⟨h, by simp⟩

theorem channelFrameEnd (c : Fin 16) (acknowledge : Bool) (f : Frame) (o : FrameOutcome) (h : u.targets = s.targets) :
    s.LeavesTargets (u.channelFrameEnd c acknowledge f o) := by
  unfold State.channelFrameEnd
  split_ifs
  · exact unitEnd _ _ h
  · exact ⟨h, by simp⟩
  · exact ⟨h, by simp⟩
  · exact unitEnd _ _ h

/-- At a frame's outcome its requester acts on its own records (R146). -/
theorem requesterOutcome (s : State) (a : Attempt) (o : FrameOutcome) (data : List Sample) :
    s.LeavesTargets (s.requesterOutcome a o data) := by
  have stored : (s.storeReceived a.frame o data).targets = s.targets := by rw [storeReceived_frame]
  unfold State.requesterOutcome
  simp only
  split
  · split
    · exact ⟨stored, by simp⟩
    · exact dutyFrameEnd _ _ _ _ _ stored
  · exact channelFrameEnd _ _ _ _ stored
  · unfold State.requestFrameEnd
    split
    · exact ⟨stored, by simp⟩
    · exact ⟨stored, by simp [State.requestEnd]⟩
  · exact ⟨stored, by simp⟩

theorem softOutcome (s : State) (a : Attempt) (o : FrameOutcome) (data : List Sample) :
    s.LeavesTargets (s.softOutcome a o data) := by
  have stored : (s.storeReceived a.frame o data).targets = s.targets := by rw [storeReceived_frame]
  unfold State.softOutcome
  simp only
  split <;> exact ⟨stored, by simp⟩

end State.LeavesTargets

/-- Behind the count of the target table a frame's end leaves the target file, up to a TARGET_OFFLINE that waits. -/
theorem frameOutcome_eq_completeOffline (s : State) (a : Attempt) (o : FrameOutcome) (data : List Sample) :
    ∃ u, (s.countOutcome a.frame.target a.frame.kind o).LeavesTargets u ∧
      s.frameOutcome a o data = u.completeOffline a.frame.target := by
  unfold State.frameOutcome
  simp only
  split
  · exact ⟨_, .softOutcome .., rfl⟩
  · exact ⟨_, .requesterOutcome .., rfl⟩

/-- On a bus that is not free the decisions leave the target file and the command unit. -/
theorem decisions_keeps_targets {s : State} (h : s.engine ≠ .free) :
    s.decisions.targets = s.targets ∧ s.decisions.unit = s.unit ∧ s.decisions.cmdResult = s.cmdResult ∧
      s.decisions.commandDone = s.commandDone := by
  have busy : s.startExcursion.engine ≠ .free := by
    rw [(startExcursion_keeps s).1]
    exact h
  rw [State.decisions, arbitrate_of_not_free busy, disposeHeads_frame, (startExcursion_keeps s).1]
  exact ⟨rfl, rfl, rfl, rfl⟩

/-- On a bus that is neither free nor just granted the end of an event leaves the target file and the command unit. -/
theorem settle_keeps_targets {s : State} (hf : s.engine ≠ .free) (hg : s.engine ≠ .granted) :
    s.settle.targets = s.targets ∧ s.settle.unit = s.unit ∧ s.settle.cmdResult = s.cmdResult ∧
      s.settle.commandDone = s.commandDone := by
  let v := s.haltDownChannels.disposeHeads
  obtain ⟨engine, targets, unit, result, done⟩ : v.engine = s.engine ∧ v.targets = s.targets ∧ v.unit = s.unit ∧
      v.cmdResult = s.cmdResult ∧ v.commandDone = s.commandDone := by
    rw [show v = _ from disposeHeads_frame _, (haltDownChannels_reads s).1]
    exact ⟨rfl, rfl, rfl, rfl, rfl⟩
  have checked : s.settle = v.decisions := congrArg State.decisions (firstCheck_of_ne (engine.trans_ne hg))
  rw [checked, ← targets, ← unit, ← result, ← done]
  exact decisions_keeps_targets (engine.trans_ne hf)

/-- The command that ends the last attempt of a frame leaves the record that the outcome and a waiting TARGET_OFFLINE
give, every other record, and a TARGET_OFFLINE that waited completed with OK (R146, R157). -/
theorem exec_frameEnd_target {s : State} {a : Attempt} {c : Instr} {o : FrameOutcome} {data : List Sample}
    (he : s.engine = .attempt a) (hc : a.endsBy c o data) (hl : a.last o) :
    ∃ t, exec c s = .next t ∧
      (∀ k, t.target k = if k = a.frame.target then ((s.target k).outcome a.frame.kind o).endOffline else s.target k) ∧
      ((s.target a.frame.target).offlinePending = true → t.unit = .ready ∧ t.cmdResult = 0 ∧ t.commandDone = true) := by
  obtain ⟨u, ⟨left, notFree, notGranted⟩, ended⟩ := frameOutcome_eq_completeOffline s a o data
  have counted (k : Fin 16) := (target_of_targets left k).trans (target_countOutcome ..)
  have engine : (u.completeOffline a.frame.target).engine = u.engine := by
    rcases completeOffline_cases u a.frame.target with ⟨_, e⟩ | ⟨_, e⟩ <;> rw [e]
    rfl
  obtain ⟨targets, unit, result, done⟩ := settle_keeps_targets (engine.trans_ne notFree) (engine.trans_ne notGranted)
  refine ⟨_, by rw [exec_of_endsBy he hc, attemptOver_eq_frameOutcome hl, ended], fun k => ?_, fun pending => ?_⟩
  · rw [target_of_targets targets, target_completeOffline, counted, counted]
    by_cases hk : k = a.frame.target <;> simp [hk]
  · have waits : (u.target a.frame.target).offlinePending = true := by
      rw [counted, if_pos rfl, TargetRec.offlinePending_outcome, pending]
    rw [unit, result, done, State.completeOffline, if_pos waits]
    exact ⟨rfl, rfl, rfl⟩

/-- Settles O46: the record is that of a failed or of an answered frame, and then that of a TARGET_OFFLINE that waited. -/
theorem targetTableCountsTheOutcome : Obligations.TargetTableCountsTheOutcome := by
  intro s a c o data he hc hl r failed
  obtain ⟨t, ended, records, completed⟩ := exec_frameEnd_target he hc hl
  refine ⟨t, ended, fun k hk => (records k).trans (if_neg hk), ?_⟩
  intro q
  have record : q = (r.outcome a.frame.kind o).endOffline := (records _).trans (if_pos rfl)
  have waits : (r.outcome a.frame.kind o).offlinePending = r.offlinePending := r.offlinePending_outcome ..
  have stays (idle : r.offlinePending = false) : q.state = (r.outcome a.frame.kind o).state := by
    rw [record, TargetRec.endOffline_of_not_pending (waits.trans idle)]
  have offline (pending : r.offlinePending = true) : q.state = .offline ∧ q.offlinePending = false ∧ t.unit = .ready ∧
      t.cmdResult = 0 ∧ t.commandDone = true := by
    rw [record]
    exact ⟨if_pos (waits.trans pending), rfl, completed pending⟩
  by_cases h : failed
  · have retried : o.retried = true := (retried_iff_failure o).mpr h
    have notOk : o ≠ .ok := ((outcome_retried_iff o).mp retried).1
    rw [r.outcome_of_retried a.frame.kind retried] at record stays
    rw [record] at stays offline ⊢
    refine ⟨rfl, fun _ => ⟨rfl, rfl, rfl⟩, fun answered => absurd h answered, fun write _ => ⟨rfl, ?_⟩,
      fun _ answered => absurd h answered, fun sync => ⟨rfl, ?_⟩, fun read => ⟨rfl, ?_⟩,
      fun _ threshold => ⟨?_, fun idle => (stays idle).trans (if_pos threshold)⟩, fun below => ?_, fun _ => rfl, offline⟩
    · simp [TargetRec.endOffline, write]
    · simp [TargetRec.endOffline, sync, notOk]
    · simp [TargetRec.endOffline, read]
    · exact Bool.or_eq_true_iff.mpr (.inr (decide_eq_true threshold))
    · have under : r.consecFails + 1 ≠ r.quarantineThreshold := fun threshold => below ⟨h, threshold⟩
      exact ⟨by simp only [TargetRec.endOffline, under, decide_false, Bool.or_false],
        fun idle => (stays idle).trans (if_neg under)⟩
  · have answered : o.retried = false := eq_false_of_ne_true (mt (retried_iff_failure o).mp h)
    rw [r.outcome_of_answered a.frame.kind answered] at record stays
    rw [record] at stays offline ⊢
    refine ⟨rfl, fun failed => absurd failed h, fun _ => ⟨rfl, rfl, rfl⟩, fun _ failed => absurd failed h,
      fun write _ => ?_, fun sync => ?_, fun read => ?_, fun failed => absurd failed h, fun _ => ⟨rfl, stays⟩,
      fun _ => rfl, offline⟩
    · simp [TargetRec.endOffline, write]
    · simp [TargetRec.endOffline, sync]
    · simp [TargetRec.endOffline, read]

end Sys2Proof.Machine
end

/-!
SUPPORT. TARGET_ONLINE and TARGET_OFFLINE (R155, R156), and granted work whose target is down at its first check
(R38, R90, R106, R108, R120).
-/

section
namespace Sys2Proof.Machine

open Sys2Proof

/-! ## TARGET_ONLINE (R155) -/

section
variable {s : State} {t : Fin 16}

theorem online_iff (s : State) (t : Fin 16) : s.online t = true ↔ (s.target t).state = .online := beq_iff_eq

/-- The checks of R155's table, field by field. -/
theorem TargetRec.valid_iff (r : TargetRec) : r.valid = true ↔
    (r.profile = 0 ∨ r.profile = 1) ∧ r.settleCycles.toNat ≤ 15 ∧ r.pace.toNat ≤ 15 ∧ 1 ≤ r.readyLimit.toNat ∧
      r.retryLimit.toNat ≤ 3 ∧ 1 ≤ r.quarantineThreshold.toNat ∧ r.quarantineThreshold.toNat ≤ 15 := by
  have limit : r.readyLimit ≠ 0 ↔ 1 ≤ r.readyLimit.toNat := by bv_omega
  simp [TargetRec.valid, ← limit, and_assoc]

theorem ownTargetOnline_badOperand (h : 15 < s.cmdOperand.toNat) : s.ownTargetOnline = ⟨s, some .badOperand⟩ := if_pos h

/-- TARGET_ONLINE of an index in range: the checks behind the operand's (R155). -/
theorem ownTargetOnline_eq (h : s.cmdOperand.toNat ≤ 15) (ht : t = sixteenIndex s.cmdOperand) : s.ownTargetOnline =
    if s.online t then ⟨s, some .wrongState⟩
    else if (s.target t).valid then ⟨s.setTarget t (s.target t).bringOnline, some .ok⟩
    else ⟨s, some .invalidRecord⟩ := by
  subst ht
  exact if_neg (Nat.not_lt.mpr h)

end

/-- Settles O21, by the order of the checks. -/
theorem targetOnlineFollowsItsOrder : Obligations.TargetOnlineFollowsItsOrder := by
  intro s hp hu u t r passes
  let w : State := { s with cmdCode := 0x20 }
  have taken : ∀ (v : State) (x : Result), w.ownTargetOnline = ⟨v, some x⟩ →
      exec .targetOnline s = .next { v with cmdResult := x.code, commandDone := true }.settle :=
    fun v x h => command_answered hp hu h
  have checks (h : s.cmdOperand.toNat ≤ 15) := ownTargetOnline_eq (s := w) (t := t) h rfl
  have down (hs : r.state ≠ .online) : ¬w.online t = true := mt (online_iff w t).mp hs
  refine ⟨fun h => taken w .badOperand (ownTargetOnline_badOperand h), fun h hs => taken w .wrongState ?_,
    fun h hs hv => taken w .invalidRecord ?_, fun h hs hv => taken (w.setTarget t r.bringOnline) .ok ?_⟩
  · exact (checks h).trans (if_pos ((online_iff w t).mpr hs))
  · exact (checks h).trans ((if_neg (down hs)).trans (if_neg (mt r.valid_iff.mp hv)))
  · exact (checks h).trans ((if_neg (down hs)).trans (if_pos (r.valid_iff.mpr hv)))

/-! ## TARGET_OFFLINE by the state of its target (R156) -/

section
variable {s : State} {t : Fin 16}

theorem frameTo_iff (s : State) (t : Fin 16) : s.frameTo t = true ↔ ∃ f, s.frameOnBus = some f ∧ f.target = t := by
  unfold State.frameTo
  cases s.frameOnBus <;> simp

theorem targetOffline_badOperand (h : 15 < s.cmdOperand.toNat) : s.targetOffline = ⟨s, some .badOperand⟩ := if_pos h

/-- TARGET_OFFLINE of an index in range acts by the state of its target (R156). -/
theorem targetOffline_eq (h : s.cmdOperand.toNat ≤ 15) (ht : t = sixteenIndex s.cmdOperand) : s.targetOffline =
    match (s.target t).state with
    | .offline => ⟨s, some .wrongState⟩
    | .quarantined => ⟨s.setTarget t { s.target t with state := .offline }, some .ok⟩
    | .online =>
      if s.frameTo t then ⟨s.setTarget t { s.target t with offlinePending := true }, none⟩
      else ⟨s.setTarget t { s.target t with state := .offline }, some .ok⟩ := by
  subst ht
  exact if_neg (Nat.not_lt.mpr h)

/-- An ONLINE target to which no frame is on the bus is OFFLINE at once. -/
theorem targetOffline_at_once (h : s.cmdOperand.toNat ≤ 15) (ht : t = sixteenIndex s.cmdOperand)
    (ho : (s.target t).state = .online) (hf : ¬∃ f, s.frameOnBus = some f ∧ f.target = t) :
    s.targetOffline = ⟨s.setTarget t { s.target t with state := .offline }, some .ok⟩ := by
  rw [targetOffline_eq h ht, ho]
  exact if_neg (mt (frameTo_iff s t).mp hf)

/-- TARGET_OFFLINE behind a decision for work on its own target, by the free value (log entry 22). -/
theorem atOffline_of_unchecked (h : s.cmdOperand.toNat ≤ 15) (he : s.engine = .granted)
    (hw : s.workTarget = some (sixteenIndex s.cmdOperand)) : s.atOffline =
      if Config.commandBeforeCheck s.freeCount then { s with freeCount := s.freeCount + 1 }
      else { s with freeCount := s.freeCount + 1 }.firstCheck := if_pos ⟨he, h, hw⟩

end

/-! ## TARGET_OFFLINE behind the first target check (R120; log entry 22) -/

section
variable {s : State}

theorem engine_firstCheck_ne (s : State) : s.firstCheck.engine ≠ .granted := by
  unfold State.firstCheck
  split
  · exact engine_startWork_ne s
  · assumption

theorem unit_firstCheck (h : s.unit = .ready) : s.firstCheck.unit = .ready := by
  unfold State.firstCheck
  split
  · exact unit_startWork h
  · exact h

/-- The first target check made, TARGET_OFFLINE acts on the state as it stands. -/
theorem atOffline_firstCheck (s : State) : s.firstCheck.atOffline = s.firstCheck :=
  if_neg fun h => engine_firstCheck_ne s h.1

/-- TARGET_OFFLINE taken behind the check acts as the command does where the check has been made. -/
theorem exec_targetOffline_firstCheck (hp : s.phase = .running) (hu : s.unit = .ready)
    (ha : { s with cmdCode := 0x21 }.atOffline = { s with cmdCode := 0x21, freeCount := s.freeCount + 1 }.firstCheck) :
    exec .targetOffline s = exec .targetOffline { s with freeCount := s.freeCount + 1 }.firstCheck := by
  let b : State := { s with freeCount := s.freeCount + 1 }.firstCheck
  have phase : b.phase = .running := by rw [show b = _ from State.WorkMoves.firstCheck _]; exact hp
  have unit : b.unit = .ready := unit_firstCheck hu
  have behind : { s with cmdCode := 0x21, freeCount := s.freeCount + 1 }.firstCheck = { b with cmdCode := 0x21 } :=
    firstCheck_cmdCode { s with freeCount := s.freeCount + 1 } 0x21
  have stands : { b with cmdCode := 0x21 }.atOffline = { b with cmdCode := 0x21 } := by
    rw [← behind]
    exact atOffline_firstCheck _
  have owner : State.ownTargetOffline { s with cmdCode := 0x21 } = State.ownTargetOffline { b with cmdCode := 0x21 } :=
    congrArg State.targetOffline (ha.trans (behind.trans stands.symm))
  show Host.Outcome.next (s.command 0x21 State.ownTargetOffline) = .next (b.command 0x21 State.ownTargetOffline)
  rw [command_taken hp hu, command_taken phase unit, owner]

end

/-! ## The first target check at the end of an event -/

section
variable {s : State}

/-- `s` behind the halts and disposals of an event's end, where a first target check finds it (R84, R106). -/
def State.beforeCheck (s : State) : State := s.haltDownChannels.disposeHeads

theorem beforeCheck_keeps (s : State) :
    s.beforeCheck.grant = s.grant ∧ s.beforeCheck.engine = s.engine ∧ s.beforeCheck.inFlight = s.inFlight ∧
      s.beforeCheck.targets = s.targets ∧ s.beforeCheck.duties = s.duties ∧ s.beforeCheck.mem = s.mem ∧
      s.beforeCheck.channels = s.haltDownChannels.channels := by
  have disposals (u : State) : u.disposeHeads.grant = u.grant ∧ u.disposeHeads.engine = u.engine ∧
      u.disposeHeads.inFlight = u.inFlight ∧ u.disposeHeads.targets = u.targets ∧ u.disposeHeads.duties = u.duties ∧
      u.disposeHeads.mem = u.mem ∧ u.disposeHeads.channels = u.channels := by
    rcases disposeHeads_cases u with ⟨_, e⟩ | e <;> rw [e] <;> simp only [and_self]
  obtain ⟨grant, engine, inFlight, targets, duties, mem, channels⟩ := disposals s.haltDownChannels
  have halts := (haltDownChannels_reads s).1
  refine ⟨grant.trans ?_, engine.trans ?_, inFlight.trans ?_, targets.trans ?_, duties.trans ?_, mem.trans ?_, channels⟩ <;>
    rw [halts]

theorem channel_beforeCheck (s : State) (c : Fin 16) : s.beforeCheck.channel c = s.haltDownChannels.channel c := by
  obtain ⟨_, _, _, _, _, _, channels⟩ := beforeCheck_keeps s
  exact channel_of_channels channels c

/-- A channel whose unit is under way is not halted by R84. -/
theorem channel_beforeCheck_of_busy {c : Fin 16} (h : (s.channel c).state = .busy) :
    s.beforeCheck.channel c = s.channel c := by
  rw [channel_beforeCheck, (haltDownChannels_reads s).2 c]
  exact if_neg fun ⟨trigger, _⟩ => by simp [waiting_of_hasTrigger trigger] at h

/-- Disposal appends one TARGET_DOWN record for each request it takes (R106). -/
theorem completions_disposeHeads (s : State) :
    s.disposeHeads.completions = s.completions ++ s.disposed.map (fun r => r.without .targetDown) := by
  rcases disposeHeads_cases s with ⟨none, e⟩ | e <;> rw [e]
  simp [none]

/-- The records that an event's end appends ahead of a first target check are those of leading requests. -/
theorem completions_beforeCheck (s : State) : ∃ disposed : List Request,
    (∃ rest, s.requests = disposed ++ rest) ∧
      s.beforeCheck.completions = s.completions ++ disposed.map (fun r => r.without .targetDown) := by
  have frame := (haltDownChannels_reads s).1
  have requests : s.haltDownChannels.requests = s.requests := by rw [frame]
  have completions : s.haltDownChannels.completions = s.completions := by rw [frame]
  refine ⟨s.haltDownChannels.disposed, ⟨s.haltDownChannels.remainingRequests, ?_⟩, ?_⟩
  · rw [disposed_append_remaining, requests]
  · exact (completions_disposeHeads _).trans (by rw [completions])

theorem currentDescriptor_beforeCheck (s : State) (c : Fin 16) :
    s.beforeCheck.currentDescriptor c = s.currentDescriptor c := by
  obtain ⟨_, _, _, _, _, mem, _⟩ := beforeCheck_keeps s
  refine currentDescriptor_congr mem ?_
  rw [channel_beforeCheck, (haltDownChannels_reads s).2 c]
  split <;> rfl

/-- Halts and disposals leave the target that the granted work is checked against. -/
theorem workTarget_beforeCheck (s : State) : s.beforeCheck.workTarget = s.workTarget := by
  obtain ⟨grant, _, inFlight, _, duties, _⟩ := beforeCheck_keeps s
  have duty (n : Fin 32) : s.beforeCheck.dutyTarget n = s.dutyTarget n := by
    unfold State.dutyTarget
    rw [duty_of_duties duties]
  unfold State.workTarget
  simp only [grant, inFlight, duty, currentDescriptor_beforeCheck]

/-- The start of an excursion moves BUS_STATE and its purpose only (R167). -/
theorem startExcursion_reads (s : State) :
    s.startExcursion.grant = s.grant ∧ s.startExcursion.engine = s.engine ∧ s.startExcursion.duties = s.duties ∧
      s.startExcursion.channels = s.channels ∧ s.startExcursion.targets = s.targets ∧
      s.startExcursion.requests = s.requests ∧ s.startExcursion.inFlight = s.inFlight ∧
      s.startExcursion.completions = s.completions := by
  rcases startExcursion_cases s with ⟨_, _, e⟩ | ⟨_, e⟩ <;> rw [e] <;> simp only [and_self]

/-- Work just granted makes its check at the end of the event, and nothing but an excursion follows on the bus. -/
theorem settle_of_granted (h : s.engine = .granted) : s.settle = s.beforeCheck.startWork.startExcursion := by
  obtain ⟨_, engine, _⟩ := beforeCheck_keeps s
  obtain ⟨requests, targets, taken⟩ := startWork_keeps s.beforeCheck
  obtain ⟨_, bus, _, _, records, queue, _⟩ := startExcursion_reads s.beforeCheck.startWork
  have head : s.beforeCheck.startWork.startExcursion.headOnline :=
    headOnline_congr (headOnline_disposeHeads s.haltDownChannels) (queue.trans requests) (records.trans targets)
  have busy : s.beforeCheck.startWork.startExcursion.engine ≠ .free := bus.trans_ne taken
  show s.beforeCheck.firstCheck.decisions = _
  rw [firstCheck_of_granted (engine.trans h), State.decisions, arbitrate_of_not_free busy, disposeHeads_of_online head]

end

/-! ## Granted work whose target is down (R38, R90, R106, R108) -/

section
variable {s u : State}

/-- The work that goes on to a target that is not ONLINE ends TARGET_DOWN, each owner's in its own way. -/
theorem startWork_of_down {k : Fin 16} (hw : s.workTarget = some k) (hk : s.online k = false) :
    (∃ n position, s.grant = some (.duty n position) ∧ s.startWork = s.runFailed n .targetDown position) ∨
      (∃ c acknowledge, s.grant = some (.channel c acknowledge) ∧ s.startWork = s.unitEnd c .targetDown) ∨
      ∃ r, s.grant = some .host ∧ s.inFlight = some r ∧ s.startWork = s.requestEnd (r.without .targetDown) := by
  have offline {j : Fin 16} (h : some j = some k) : ¬s.online j = true := by simp [Option.some.inj h, hk]
  unfold State.workTarget at hw
  rcases startWork_cases s with ⟨n, p, hg, e⟩ | ⟨c, a, hg, e⟩ | ⟨r, hg, hi, e⟩ | ⟨hg | ⟨hg, hi⟩, _⟩
  · rw [hg] at hw
    exact .inl ⟨n, p, hg, e.trans (if_neg (offline hw))⟩
  · rw [hg] at hw
    exact .inr (.inl ⟨c, a, hg, e.trans (if_neg (offline hw))⟩)
  · rw [hg, hi] at hw
    exact .inr (.inr ⟨r, hg, hi, e.trans (if_neg (offline hw))⟩)
  · simp [hg] at hw
  · simp [hg, hi] at hw

/-- A failed run moves its duty's record as that record stood. -/
theorem duty_runFailed_congr {n : Fin 32} (h : u.duty n = s.duty n) (cause : Condition) (position : Nat) :
    (u.runFailed n cause position).duty n = (s.runFailed n cause position).duty n := by
  unfold State.runFailed State.settleDuty
  simp only [h]
  split
  · simp
  · split <;> simp

/-- A failed unit moves its channel's record as that record stood. -/
theorem channel_unitEnd_congr {c : Fin 16} {cause : Condition} (hc : cause ≠ .none) (h : u.channel c = s.channel c) :
    (u.unitEnd c cause).channel c = (s.unitEnd c cause).channel c := by
  rw [channel_unitEnd, channel_unitEnd, if_pos rfl, if_pos rfl, unitRecord_of_failure hc, unitRecord_of_failure hc, h]

/-- The end of a unit ends its grant, and the gap follows. -/
theorem unitEnd_ends (s : State) (c : Fin 16) (failure : Condition) :
    (s.unitEnd c failure).grant = none ∧ (s.unitEnd c failure).engine = .gap := by
  rcases unitEnd_cases s c failure with ⟨_, e⟩ | ⟨_, e⟩ <;> rw [e] <;> exact ⟨rfl, rfl⟩

/-- From `s` to `u` the granted work has ended TARGET_DOWN at its first check: no frame goes out, the gap follows, and the
owner's record is that of the failure (R38, R90, R106, R108). -/
structure State.EndsDown (s u : State) : Prop where
  grant : u.grant = none
  engine : u.engine = .gap
  duty : ∀ n position, s.grant = some (.duty n position) →
    u.duty n = (s.runFailed n .targetDown position).duty n
  channel : ∀ c acknowledge, s.grant = some (.channel c acknowledge) → (s.channel c).state = .busy →
    u.channel c = (s.unitEnd c .targetDown).channel c
  request : ∀ q : Request, s.grant = some .host → s.inFlight = some q → u.inFlight = none ∧
    ∃ disposed : List Request, (∃ rest, s.requests = disposed ++ rest) ∧
      u.completions = s.completions ++ disposed.map (fun r => r.without .targetDown) ++ [q.without .targetDown]

/-- The start of an excursion behind the end changes none of that. -/
theorem State.EndsDown.startExcursion (h : s.EndsDown u) : s.EndsDown u.startExcursion := by
  obtain ⟨grant, engine, duties, channels, _, _, inFlight, completions⟩ := startExcursion_reads u
  refine ⟨grant.trans h.grant, engine.trans h.engine, fun n p hg => ?_, fun c a hg hb => ?_, fun q hg hq => ?_⟩
  · exact (duty_of_duties duties n).trans (h.duty n p hg)
  · exact (channel_of_channels channels c).trans (h.channel c a hg hb)
  · rw [inFlight, completions]
    exact h.request q hg hq

/-- The first target check of work whose target is down ends that work. -/
theorem endsDown_startWork {k : Fin 16} (hw : s.workTarget = some k) (hk : s.online k = false) :
    s.EndsDown s.beforeCheck.startWork := by
  obtain ⟨grant, _, inFlight, targets, duties, _⟩ := beforeCheck_keeps s
  have down : s.beforeCheck.online k = false := (online_congr targets k).trans hk
  rcases startWork_of_down ((workTarget_beforeCheck s).trans hw) down with ⟨n, p, hg, e⟩ | ⟨c, a, hg, e⟩ | ⟨r, hg, hi, e⟩ <;>
    rw [grant] at hg <;> rw [e]
  · obtain ⟨ended, gap, _⟩ := runFailed_changes s.beforeCheck n .targetDown p
    refine ⟨ended, gap, fun m q h => ?_, fun _ _ h => by simp [hg] at h, fun _ h => by simp [hg] at h⟩
    obtain ⟨rfl, rfl⟩ : n = m ∧ p = q := by simpa [hg] using h
    exact duty_runFailed_congr (duty_of_duties duties n) .targetDown p
  · obtain ⟨ended, gap⟩ := unitEnd_ends s.beforeCheck c .targetDown
    refine ⟨ended, gap, fun _ _ h => by simp [hg] at h, fun d b h busy => ?_, fun _ h => by simp [hg] at h⟩
    obtain ⟨rfl, rfl⟩ : c = d ∧ a = b := by simpa [hg] using h
    exact channel_unitEnd_congr (by simp) (channel_beforeCheck_of_busy busy)
  · refine ⟨by simp [State.requestEnd], by simp [State.requestEnd], fun _ _ h => by simp [hg] at h,
      fun _ _ h => by simp [hg] at h, fun q _ hq => ⟨by simp [State.requestEnd], ?_⟩⟩
    obtain rfl : r = q := Option.some.inj (hi.symm.trans (inFlight.trans hq))
    obtain ⟨disposed, leading, records⟩ := completions_beforeCheck s
    exact ⟨disposed, leading, congrArg (· ++ [r.without .targetDown]) records⟩

/-- An event that finds granted work with its target down ends that work. -/
theorem endsDown_settle {k : Fin 16} (he : s.engine = .granted) (hw : s.workTarget = some k) (hk : s.online k = false) :
    s.EndsDown s.settle := by
  rw [settle_of_granted he]
  exact (endsDown_startWork hw hk).startExcursion

end

/-- Settles O22: by the state of the target, and, behind a decision for work on it, by the free value. -/
theorem targetOfflineWaitsForItsFrame : Obligations.TargetOfflineWaitsForItsFrame := by
  intro s hp hu u t r addressed unchecked
  have stands (h : ¬(s.cmdOperand.toNat ≤ 15 ∧ unchecked)) : u.atOffline = u :=
    if_neg fun ⟨he, hn, hw⟩ => h ⟨hn, he, hw⟩
  have taken (v w : State) (x : Result) (ha : u.atOffline = v) (h : v.targetOffline = ⟨w, some x⟩) :
      exec .targetOffline s = .next { w with cmdResult := x.code, commandDone := true }.settle :=
    command_answered hp hu ((congrArg State.targetOffline ha).trans h)
  have waits (w : State) (ha : u.atOffline = u) (h : u.targetOffline = ⟨w, none⟩) :
      exec .targetOffline s = .next { w with unit := .pending, cmdResult := 0xFF }.settle :=
    command_waits hp hu ((congrArg State.targetOffline ha).trans h)
  have byState (h : s.cmdOperand.toNat ≤ 15) := targetOffline_eq (s := u) (t := t) h rfl
  refine ⟨fun h => taken u u .badOperand (stands fun ⟨inRange, _⟩ => by omega) (targetOffline_badOperand h),
    fun h hc hs => taken u u .wrongState (stands (hc ·.2)) ?_,
    fun h hc hs => taken u (u.setTarget t { r with state := .offline }) .ok (stands (hc ·.2)) ?_,
    fun h hc hs hf => waits (u.setTarget t { r with offlinePending := true }) (stands (hc ·.2)) ?_,
    fun h ⟨he, hw⟩ hs => ?_⟩
  · rw [byState h, show (u.target t).state = .offline from hs]
  · rcases hs with hs | ⟨hs, hf⟩
    · rw [byState h, show (u.target t).state = .quarantined from hs]
      rfl
    · exact targetOffline_at_once (s := u) h rfl hs hf
  · rw [byState h, show (u.target t).state = .online from hs]
    exact if_pos ((frameTo_iff u t).mpr hf)
  · have beside : u.atOffline = _ := atOffline_of_unchecked (s := u) h he hw
    split
    · rename_i before
      let b : State := { u with freeCount := s.freeCount + 1 }
      let v : State := { u with cmdResult := 0, commandDone := true, freeCount := s.freeCount + 1 }.setTarget t
        { r with state := .offline }
      have unaddressed : ¬addressed := fun ⟨f, frame, _⟩ => by simp [State.frameOnBus, he] at frame
      have offline : b.targetOffline = ⟨b.setTarget t { r with state := .offline }, some .ok⟩ :=
        targetOffline_at_once (s := b) h rfl hs unaddressed
      have down : v.online t = false := by simp [v, State.online]
      have ends : v.EndsDown v.settle := endsDown_settle he hw down
      have answered : exec .targetOffline s = .next v.settle :=
        taken b (b.setTarget t { r with state := .offline }) .ok (beside.trans (if_pos before)) offline
      refine ⟨v, answered, rfl, ends.grant, ends.engine, fun n p hg => ?_, fun c a hg hb => ?_, ends.request⟩
      · exact (ends.duty n p hg).trans (duty_runFailed_congr (u := v) (s := s) rfl .targetDown p)
      · exact (ends.channel c a hg hb).trans (channel_unitEnd_congr (u := v) (s := s) (by simp) rfl)
    · rename_i behind
      exact exec_targetOffline_firstCheck hp hu (beside.trans (if_neg behind))

end Sys2Proof.Machine
end

/-!
SUPPORT. Stale marking, QUIET_EXIT row by row (R170, R171), and the marks that end the wait of WAKING (R168).
-/

section
namespace Sys2Proof.Machine

open Sys2Proof

/-! ## Stale marking (R171) -/

theorem DutyRec.markStale_eq (d : DutyRec) : d.markStale =
    if d.quietPolicy = 0 ∧ (d.state = .armed ∨ d.state = .due) then { d with stale := true } else d := by
  simp only [DutyRec.markStale, DutyRec.holds, Bool.and_eq_true, Bool.or_eq_true, beq_iff_eq]

theorem duty_markStale (s : State) (n : Fin 32) : s.markStale.duty n = (s.duty n).markStale := duty_mapDuties ..

theorem markStale_frame (s : State) : s.markStale = { s with duties := s.markStale.duties } := mapDuties_frame ..

/-- Stale marking reads the duty file only. -/
theorem duties_markStale_congr {s t : State} (h : t.duties = s.duties) : t.markStale.duties = s.markStale.duties := by
  ext1 i hi
  have same : t.markStale.duty ⟨i, hi⟩ = s.markStale.duty ⟨i, hi⟩ := by
    rw [duty_markStale, duty_markStale, duty_of_duties h]
  exact same

/-- The result of a command, recorded before the stale marking or behind it, is the same. -/
theorem markStale_ok (s : State) : { s with cmdResult := 0, commandDone := true }.markStale =
    { s.markStale with cmdResult := 0, commandDone := true } := by
  have marked : { s with cmdResult := 0, commandDone := true }.markStale =
      { s with cmdResult := 0, commandDone := true, duties := s.markStale.duties } := by
    rw [← duties_markStale_congr (s := s) (t := { s with cmdResult := 0, commandDone := true }) rfl]
    exact markStale_frame _
  rw [marked, markStale_frame s]

/-! ## QUIET_ENTER and QUIET_EXIT by the bus state (R164, R170) -/

section
variable {s : State}

theorem broadcastOnBus_iff (s : State) (b : Broadcast) : s.broadcastOnBus = some b ↔ s.engine = .broadcast b := by
  unfold State.broadcastOnBus
  cases s.engine <;> simp

theorem ownQuietEnter_active (h : s.busState = .active) :
    s.ownQuietEnter = ⟨{ s with busState := .draining }, some .ok⟩ := if_pos h

theorem ownQuietEnter_elsewhere (h : s.busState ≠ .active) : s.ownQuietEnter = ⟨s, some .wrongState⟩ := if_neg h

theorem ownQuietExit_active (h : s.busState = .active) : s.ownQuietExit = ⟨s, some .wrongState⟩ := by
  rw [State.ownQuietExit, h]

theorem ownQuietExit_draining (h : s.busState = .draining) (hq : s.engine ≠ .broadcast .quiet) :
    s.ownQuietExit = ⟨{ s with busState := .active }, some .ok⟩ := by
  rw [State.ownQuietExit, h]
  exact if_neg (mt (broadcastOnBus_iff s .quiet).mp hq)

/-- In DRAINING and in EXCURSION, a QUIET broadcast on the bus decides the row. -/
theorem ownQuietExit_behind (h : s.busState = .draining ∨ s.busState = .excursion) (hq : s.engine = .broadcast .quiet) :
    s.ownQuietExit = s.exitBehindBroadcast := by
  have broadcasting := (broadcastOnBus_iff s .quiet).mpr hq
  rcases h with h | h <;> rw [State.ownQuietExit, h] <;> exact if_pos broadcasting

/-- The first QUIET_EXIT behind the broadcast sets the purpose, and a second finds it set (R170). -/
theorem ownQuietExit_behind_first (h : s.busState = .draining ∨ s.busState = .excursion)
    (hq : s.engine = .broadcast .quiet) (hx : s.purpose ≠ .exit) :
    s.ownQuietExit = ⟨{ s with purpose := .exit }, some .ok⟩ := (ownQuietExit_behind h hq).trans (if_neg hx)

theorem ownQuietExit_behind_again (h : s.busState = .draining ∨ s.busState = .excursion)
    (hq : s.engine = .broadcast .quiet) (hx : s.purpose = .exit) : s.ownQuietExit = ⟨s, some .wrongState⟩ :=
  (ownQuietExit_behind h hq).trans (if_pos hx)

theorem ownQuietExit_quiet (h : s.busState = .quiet) :
    s.ownQuietExit = ⟨{ s.markStale with busState := .waking, purpose := .exit }, some .ok⟩ := by
  rw [State.ownQuietExit, h]

/-- In WAKING too, only the first QUIET_EXIT acts (R170). -/
theorem ownQuietExit_waking_first (h : s.busState = .waking) (hx : s.purpose ≠ .exit) :
    s.ownQuietExit = ⟨{ s.markStale with purpose := .exit }, some .ok⟩ := by
  rw [State.ownQuietExit, h]
  exact if_neg hx

theorem ownQuietExit_waking_again (h : s.busState = .waking) (hx : s.purpose = .exit) :
    s.ownQuietExit = ⟨s, some .wrongState⟩ := by
  rw [State.ownQuietExit, h]
  exact if_pos hx

theorem ownQuietExit_excursion (h : s.busState = .excursion) (hq : s.engine ≠ .broadcast .quiet) : s.ownQuietExit =
    ⟨{ s.markStale with busState := .active, purpose := .none, busStateCause := true }, some .ok⟩ := by
  rw [State.ownQuietExit, h]
  exact if_neg (mt (broadcastOnBus_iff s .quiet).mp hq)

end

/-! ## The end of the QUIET broadcast, and the marks that end the wait of WAKING (R166, R168) -/

section
variable {s : State}

/-- Marks that complete the period in force and stay within the next issue one tick (R4). -/
theorem countMarks_beyond {k : Nat} (h : s.periodInForce.toNat ≤ s.tickCount + k)
    (within : s.tickCount + k - s.periodInForce.toNat < s.tickPeriod.toNat) :
    s.countMarks k = { s with
      tickCount := s.tickCount + k - s.periodInForce.toNat, ticksDue := s.ticksDue + 1
      periodInForce := s.tickPeriod } := by
  refine (if_neg (by omega)).trans ?_
  simp only [Nat.mod_eq_of_lt within, Nat.div_eq_of_lt within, Nat.add_zero]

theorem quietBroadcastEnd_exit (h : s.purpose = .exit) :
    s.quietBroadcastEnd = { ({ s with engine := .gap }).markStale with busState := .waking } := by
  rw [State.quietBroadcastEnd, h]

theorem quietBroadcastEnd_quiet (h : s.purpose ≠ .exit) :
    s.quietBroadcastEnd = { s with engine := .gap, busState := .quiet, busStateCause := true } := by
  unfold State.quietBroadcastEnd
  cases hp : s.purpose with
  | exit => exact absurd hp h
  | none => rfl
  | excursion => rfl

theorem passMarks_zero (s : State) : s.passMarks 0 = s := if_pos rfl

/-- Marks that do not complete the period, or none at all, count in the tick counter only (R4). -/
theorem passMarks_within {k : Nat} (h : k = 0 ∨ s.tickCount + k < s.periodInForce.toNat) :
    (s.passMarks k).tickCount = s.tickCount + k ∧ (s.passMarks k).ticksDue = s.ticksDue ∧
      (s.passMarks k).periodInForce = s.periodInForce := by
  by_cases hk : k = 0
  · rw [hk, passMarks_zero]
    exact ⟨rfl, rfl, rfl⟩
  · rw [passMarks_eq s hk, countMarks_within (h.resolve_left hk)]
    exact ⟨rfl, rfl, rfl⟩

/-- Marks that complete the period and stay within the next count there (R4). -/
theorem passMarks_beyond {k : Nat} (hk : k ≠ 0) (h : s.periodInForce.toNat ≤ s.tickCount + k)
    (within : s.tickCount + k - s.periodInForce.toNat < s.tickPeriod.toNat) :
    (s.passMarks k).tickCount = s.tickCount + k - s.periodInForce.toNat ∧ (s.passMarks k).ticksDue = s.ticksDue + 1 ∧
      (s.passMarks k).periodInForce = s.tickPeriod := by
  rw [passMarks_eq s hk, countMarks_beyond h within]
  exact ⟨rfl, rfl, rfl⟩

/-- The end of the wait, by the state that the marks up to it leave. -/
theorem endWakeWait_frame (s : State) :
    let m := s.passMarks (s.wakeLatched.toNat - s.wakeTimer)
    let u := s.endWakeWait
    u = { s with
      wakeTimer := 0, wakeWaiting := false, purpose := .none, busState := u.busState
      busStateCause := u.busStateCause, prescaler := m.prescaler, prescalerDiv := m.prescalerDiv
      tickCount := m.tickCount, ticksDue := m.ticksDue, periodInForce := m.periodInForce } := by
  simp only [State.endWakeWait]
  rw [endWait_frame, passMarks_frame]

theorem endWakeWait_excursion (h : s.purpose = .excursion) :
    s.endWakeWait.busState = .excursion ∧ s.endWakeWait.busStateCause = s.busStateCause := by
  have marks := passMarks_frame s (s.wakeLatched.toNat - s.wakeTimer)
  have cause : (s.passMarks (s.wakeLatched.toNat - s.wakeTimer)).busStateCause = s.busStateCause := by rw [marks]
  rw [← cause]
  exact endWait_excursion (by rw [marks]; exact h)

theorem endWakeWait_active (h : s.purpose ≠ .excursion) :
    s.endWakeWait.busState = .active ∧ s.endWakeWait.busStateCause = true :=
  endWait_active (by rw [passMarks_frame]; exact h)

end

end Sys2Proof.Machine
end

/-!
PROOF. Quiet operation: QUIET_ENTER and QUIET_EXIT (R164, R170, R171), and the ends of the broadcasts and of the wait
(R166, R168, R173).
-/

section
namespace Sys2Proof.Machine

open Sys2Proof

/-- Settles O25: the owner's row by the bus state, the broadcast on the bus and the purpose. -/
theorem quietEnterAndExitFollowTheirRules : Obligations.QuietEnterAndExitFollowTheirRules := by
  intro s hp hu u ok wrong quietOnBus e
  let w : State := { s with cmdCode := 0x41 }
  have enters (t : State) (x : Result) (h : State.ownQuietEnter { s with cmdCode := 0x40 } = ⟨t, some x⟩) :
      exec .quietEnter s = .next { t with cmdResult := x.code, commandDone := true }.settle :=
    command_answered hp hu h
  have exits (t : State) (x : Result) (h : w.ownQuietExit = ⟨t, some x⟩) :
      exec .quietExit s = .next { t with cmdResult := x.code, commandDone := true }.settle :=
    command_answered hp hu h
  have stale : ok.markStale = { w.markStale with cmdResult := 0, commandDone := true } := markStale_ok w
  refine ⟨fun h => enters { s with cmdCode := 0x40, busState := .draining } .ok (ownQuietEnter_active h),
    fun h => enters { s with cmdCode := 0x40 } .wrongState (ownQuietEnter_elsewhere h),
    fun h => exits w .wrongState (ownQuietExit_active h),
    fun h hq => exits { w with busState := .active } .ok (ownQuietExit_draining h hq),
    fun h hq hx => exits { w with purpose := .exit } .ok (ownQuietExit_behind_first h hq hx),
    fun h hq hx => exits w .wrongState (ownQuietExit_behind_again h hq hx),
    fun h => ?_, fun h hx => ?_, fun h hx => exits w .wrongState (ownQuietExit_waking_again h hx),
    fun h hq => ?_, markStale_frame s, fun n => (duty_markStale s n).trans (s.duty n).markStale_eq⟩ <;> rw [stale]
  · exact exits { w.markStale with busState := .waking, purpose := .exit } .ok (ownQuietExit_quiet h)
  · exact exits { w.markStale with purpose := .exit } .ok (ownQuietExit_waking_first h hx)
  · exact exits { w.markStale with busState := .active, purpose := .none, busStateCause := true } .ok
      (ownQuietExit_excursion h hq)

/-- Settles O53: each end by the purpose, and the timebase by the marks up to the end of the wait. -/
theorem quietControllerActsAtEachEnd : Obligations.QuietControllerActsAtEachEnd := by
  intro s
  have ended (h : s.engine = .broadcast .quiet) : exec .quietBroadcastEnd s = .next s.quietBroadcastEnd.settle :=
    if_pos h
  refine ⟨fun h hx => (ended h).trans ?_, fun h hx => (ended h).trans ?_, fun h => if_neg h, fun h => if_pos h,
    fun h => if_neg h, fun hw => if_neg (by simp [hw]), fun hw => ?_⟩
  · rw [quietBroadcastEnd_quiet hx]
  · rw [quietBroadcastEnd_exit hx]
  · intro left beyond
    have frame := endWakeWait_frame s
    refine ⟨s.endWakeWait, if_pos hw, endWakeWait_excursion, endWakeWait_active, fun h => ?_, fun h => ?_, fun h => ?_,
      fun h complete within => ?_, ?_⟩ <;> rw [frame]
    · show (s.passMarks left).prescaler = _ ∧ (s.passMarks left).prescalerDiv = _
      rw [h, passMarks_zero]
      exact ⟨rfl, rfl⟩
    · show (s.passMarks left).prescaler = _ ∧ (s.passMarks left).prescalerDiv = _
      rw [passMarks_eq s h.ne']
      exact ⟨rfl, rfl⟩
    · exact passMarks_within h
    · exact passMarks_beyond h.ne' complete within

end Sys2Proof.Machine
end

/-!
SUPPORT. Members of the notice set by their codes (R184), what NOTICE_MEMBER takes from a record (R185), and the
interrupt causes bit by bit (R186, R187).
-/

section
namespace Sys2Proof.Machine

open Sys2Proof

/-! ## Member codes (R184) -/

section
variable (s : State)

theorem memberCauses_duty (n : Fin 32) : s.memberCauses n.val = (s.duty n).notices := by
  refine (if_pos n.isLt).trans ?_
  simp only [Nat.mod_eq_of_lt n.isLt, Fin.eta]

theorem memberCauses_channel (c : Fin 16) : s.memberCauses (32 + c.val) = (s.channel c).notices := by
  refine (if_neg (by omega)).trans ((if_pos (by omega)).trans ?_)
  simp only [Nat.add_sub_cancel_left, Nat.mod_eq_of_lt c.isLt, Fin.eta]

theorem memberCauses_target (k : Fin 16) : s.memberCauses (48 + k.val) = (s.target k).notices := by
  refine (if_neg (by omega)).trans ((if_neg (by omega)).trans ((if_pos (by omega)).trans ?_))
  simp only [Nat.add_sub_cancel_left, Nat.mod_eq_of_lt k.isLt, Fin.eta]

theorem memberCauses_beyond {m : Nat} (h : 64 ≤ m) : s.memberCauses m = 0 :=
  (if_neg (by omega)).trans ((if_neg (by omega)).trans (if_neg (by omega)))

/-- A member code names one duty, one channel or one target. -/
theorem member_cases {m : Nat} (h : m < 64) :
    (∃ n : Fin 32, m = n.val) ∨ (∃ c : Fin 16, m = 32 + c.val) ∨ ∃ k : Fin 16, m = 48 + k.val := by
  by_cases duty : m < 32
  · exact .inl ⟨⟨m, duty⟩, rfl⟩
  · by_cases channel : m < 48
    · exact .inr (.inl ⟨⟨m - 32, by omega⟩, by simp only; omega⟩)
    · exact .inr (.inr ⟨⟨m - 48, by omega⟩, by simp only; omega⟩)

/-- The level cause NOTICE is present exactly while a member holds a cause (R184, R186). -/
theorem noticePresent_iff : s.noticePresent = true ↔ ∃ m, m < 64 ∧ s.memberCauses m ≠ 0 := by
  simp only [State.noticePresent, Bool.or_eq_true, List.any_eq_true, bne_iff_ne]
  constructor
  · rintro ((⟨n, _, h⟩ | ⟨c, _, h⟩) | ⟨k, _, h⟩)
    · exact ⟨n.val, by omega, by rwa [memberCauses_duty]⟩
    · exact ⟨32 + c.val, by omega, by rwa [memberCauses_channel]⟩
    · exact ⟨48 + k.val, by omega, by rwa [memberCauses_target]⟩
  · rintro ⟨m, hm, h⟩
    rcases member_cases hm with ⟨n, rfl⟩ | ⟨c, rfl⟩ | ⟨k, rfl⟩
    · exact .inl (.inl ⟨n, mem_allDuties n, by rwa [memberCauses_duty] at h⟩)
    · exact .inl (.inr ⟨c, mem_allSixteen c, by rwa [memberCauses_channel] at h⟩)
    · exact .inr ⟨k, mem_allSixteen k, by rwa [memberCauses_target] at h⟩

end

/-! ## A member is collected (R185) -/

section
variable (s : State)

theorem collectMember_duty (n : Fin 32) : s.collectMember n.val = s.setDuty n (s.duty n).clearNotices := by
  refine (if_pos n.isLt).trans ?_
  simp only [Nat.mod_eq_of_lt n.isLt, Fin.eta]

theorem collectMember_channel (c : Fin 16) :
    s.collectMember (32 + c.val) = s.setChannel c (s.channel c).clearNotices := by
  refine (if_neg (by omega)).trans ((if_pos (by omega)).trans ?_)
  simp only [Nat.add_sub_cancel_left, Nat.mod_eq_of_lt c.isLt, Fin.eta]

theorem collectMember_target (k : Fin 16) : s.collectMember (48 + k.val) = s.setTarget k (s.target k).clearNotices := by
  refine (if_neg (by omega)).trans ((if_neg (by omega)).trans ?_)
  simp only [Nat.add_sub_cancel_left, Nat.mod_eq_of_lt k.isLt, Fin.eta]

theorem collectMember_frame (m : Nat) :
    let t := s.collectMember m
    t = { s with targets := t.targets, channels := t.channels, duties := t.duties } := by
  unfold State.collectMember
  split_ifs <;> rfl

/-- The member's record loses its notices, and every other record stands. -/
theorem records_collectMember {m : Nat} (h : m < 64) :
    (∀ n, (s.collectMember m).duty n = if n.val = m then (s.duty n).clearNotices else s.duty n) ∧
    (∀ c, (s.collectMember m).channel c = if 32 + c.val = m then (s.channel c).clearNotices else s.channel c) ∧
    ∀ k, (s.collectMember m).target k = if 48 + k.val = m then (s.target k).clearNotices else s.target k := by
  rcases member_cases h with ⟨n, rfl⟩ | ⟨c, rfl⟩ | ⟨k, rfl⟩
  · rw [collectMember_duty]
    refine ⟨fun e => ?_, fun e => (if_neg (by omega)).symm, fun e => (if_neg (by omega)).symm⟩
    by_cases he : e = n
    · subst he; simp
    · simp [he, Fin.val_ne_of_ne he]
  · rw [collectMember_channel]
    refine ⟨fun e => (if_neg (by omega)).symm, fun e => ?_, fun e => (if_neg (by omega)).symm⟩
    by_cases he : e = c
    · subst he; simp
    · simp [he, Fin.val_ne_of_ne he]
  · rw [collectMember_target]
    refine ⟨fun e => (if_neg (by omega)).symm, fun e => (if_neg (by omega)).symm, fun e => ?_⟩
    by_cases he : e = k
    · subst he; simp
    · simp [he, Fin.val_ne_of_ne he]

/-- The collected member leaves the notice set, and every other member keeps its causes. -/
theorem memberCauses_collectMember {m : Nat} (h : m < 64) (k : Nat) :
    (s.collectMember m).memberCauses k = if k = m then 0 else s.memberCauses k := by
  obtain ⟨duties, channels, targets⟩ := records_collectMember s h
  by_cases hk : k < 64
  · rcases member_cases hk with ⟨n, rfl⟩ | ⟨c, rfl⟩ | ⟨t, rfl⟩
    · rw [memberCauses_duty, memberCauses_duty, duties]
      split
      · exact DutyRec.notices_clearNotices _
      · rfl
    · rw [memberCauses_channel, memberCauses_channel, channels]
      split
      · exact ChannelRec.notices_clearNotices _
      · rfl
    · rw [memberCauses_target, memberCauses_target, targets]
      split
      · exact TargetRec.notices_clearNotices _
      · rfl
  · rw [memberCauses_beyond _ (by omega), memberCauses_beyond _ (by omega), ite_self]

end

/-! ## The interrupt causes bit by bit (R186, R187) -/

theorem getLsbD_flagBit (b : Bool) {j : Nat} (h : j < 8) (k : Nat) :
    (flagBit b j).getLsbD k = (b && decide (k = j)) := by
  cases b
  · simp [flagBit]
  · show (BitVec.twoPow 8 j).getLsbD k = _
    rw [BitVec.getLsbD_twoPow]
    simp [h, eq_comm]

/-- INT_CAUSE shows the two level causes and the five sticky ones in its low bits (R186). -/
theorem getLsbD_intCause (s : State) (k : Nat) : s.intCause.getLsbD k =
    [s.noticePresent, s.completionPresent, s.commandDone, s.busStateCause, s.guardCause, s.collisionCause,
      s.readyCause].getD k false := by
  simp only [State.intCause, BitVec.getLsbD_setWidth, BitVec.getLsbD_or, getLsbD_flagBit, Nat.reduceLT]
  match k with
  | 0 | 1 | 2 | 3 | 4 | 5 | 6 => simp
  | k + 7 => simp

theorem completionPresent_iff (s : State) : s.completionPresent = true ↔ s.completions ≠ [] := by
  simp [State.completionPresent]

/-- INT# is driven low exactly while a present cause is enabled (R187). -/
theorem intLow_iff (s : State) :
    s.intLow = true ↔ ∃ k, s.intCause.getLsbD k = true ∧ s.intEnable.getLsbD k = true := by
  have present : s.intLow = true ↔ s.intCause &&& s.intEnable ≠ 0 := bne_iff_ne
  rw [present]
  constructor
  · intro h
    by_contra none
    refine h (BitVec.eq_of_getLsbD_eq fun k _ => ?_)
    rw [BitVec.getLsbD_and]
    simpa using fun hc he => none ⟨k, hc, he⟩
  · rintro ⟨k, hc, he⟩ zero
    have bit := congrArg (BitVec.getLsbD · k) zero
    simp [hc, he] at bit

/-- A write of INT_CAUSE clears each sticky cause whose bit is 1 and touches no level cause (R186). -/
theorem getLsbD_intCause_clearSticky (s : State) (v : Half) (k : Nat) : (s.clearSticky v).intCause.getLsbD k =
    (s.intCause.getLsbD k && !(decide (2 ≤ k ∧ k ≤ 6) && v.getLsbD k)) := by
  have notice : (s.clearSticky v).noticePresent = s.noticePresent := rfl
  have completion : (s.clearSticky v).completionPresent = s.completionPresent := rfl
  rw [getLsbD_intCause, getLsbD_intCause, notice, completion]
  match k with
  | 0 | 1 => simp
  | 2 | 3 | 4 | 5 | 6 => simp [State.clearSticky]
  | k + 7 => simp

/-- The enables are the seven low bits (R187). -/
theorem getLsbD_enables (w : Half) (k : Nat) : (w &&& 0x7F).getLsbD k = (decide (k ≤ 6) && w.getLsbD k) := by
  have mask : (0x7F : Half).getLsbD k = decide (k ≤ 6) := by
    by_cases h : k < 16
    · revert k; decide
    · rw [BitVec.getLsbD_of_ge _ _ (by omega), decide_eq_false (by omega)]
  rw [BitVec.getLsbD_and, mask, Bool.and_comm]

end Sys2Proof.Machine
end

/-!
PROOF. The interrupt causes, their enables and INT# (R184, R186, R187), the notice port (R185), whole 16-bit accesses
(R177, R178), and the step that takes the front command (R176).
-/

section
namespace Sys2Proof.Machine

open Sys2Proof

/-- Settles O30: the causes bit by bit, and each write by its own rule on the joined value. -/
theorem interruptCausesEnablesAndLine : Obligations.InterruptCausesEnablesAndLine := by
  intro s
  have bit := getLsbD_intCause s
  refine ⟨?_, ?_, bit 2, bit 3, bit 4, bit 5, bit 6, fun k hk => ?_, intLow_iff s, fun high hp => ?_⟩
  · rw [bit 0]
    exact noticePresent_iff s
  · rw [bit 1]
    exact completionPresent_iff s
  · rw [bit k]
    exact List.getD_eq_default _ _ hk
  · intro v w
    exact ⟨⟨(s.setHold .intCause none).clearSticky v, windowWrite_of_running hp 0x25,
        fun k _ => getLsbD_intCause_clearSticky (s.setHold .intCause none) v k, rfl⟩,
      ⟨{ s.setHold .intEnable none with intEnable := w &&& 0x7F }, windowWrite_of_running hp 0x27, rfl,
        getLsbD_enables w⟩⟩

/-! ## NOTICE_MEMBER (R185) -/

section
variable {s : State}

theorem exec_noticeMemberRead (hp : s.phase = .running) : exec .noticeMemberRead s = .next s.readNoticeMember :=
  congrArg Host.Outcome.next (if_pos hp : s.windowRead 0x20 = s.readRunning 0x20)

/-- The head of the notice set is its lowest member. -/
theorem noticeSet_eq_cons {m : Nat} (hm : m < 64) (causes : s.memberCauses m ≠ 0)
    (lowest : ∀ k, k < m → s.memberCauses k = 0) : ∃ rest, s.noticeSet = m :: rest := by
  have first : s.noticeSet.head? = some m := by
    rw [State.noticeSet, List.head?_filter, List.find?_range_eq_some]
    exact ⟨bne_iff_ne.mpr causes, List.mem_range.mpr hm, fun k hk => by simp [lowest k hk]⟩
  exact List.head?_eq_some_iff.mp first

theorem noticeSet_eq_nil_of_no_member (h : ∀ m, m < 64 → s.memberCauses m = 0) : s.noticeSet = [] :=
  List.filter_eq_nil_iff.mpr fun m hm => by simp [h m (List.mem_range.mp hm)]

theorem readNoticeMember_nil (h : s.noticeSet = []) :
    s.readNoticeMember = ({ s with noticeCause := 0 }.answer 0xFF).setLatch .noticeCause none := by
  unfold State.readNoticeMember
  rw [h]

theorem readNoticeMember_cons {m : Nat} {rest : List Nat} (h : s.noticeSet = m :: rest) : s.readNoticeMember =
    (({ s.collectMember m with noticeCause := memberKind m ++ s.memberCauses m }).answer (BitVec.ofNat 8 m)).setLatch
      .noticeCause none := by
  unfold State.readNoticeMember
  rw [h]

end

/-- Settles O36: the read answers the head of the notice set, which is the lowest member, and collects it. -/
theorem noticeReadTakesTheLowestMember : Obligations.NoticeReadTakesTheLowestMember := by
  intro s hp
  refine ⟨fun m hm causes lowest => ?_, fun none => ?_⟩
  · obtain ⟨rest, set⟩ := noticeSet_eq_cons hm causes lowest
    have left := memberCauses_collectMember s hm
    have collected := collectMember_frame s m
    obtain ⟨duties, channels, targets⟩ := records_collectMember s hm
    have latches (r : Reg16) : (s.collectMember m).latch r = s.latch r := by rw [collected]; rfl
    refine ⟨_, (exec_noticeMemberRead hp).trans (congrArg _ (readNoticeMember_cons set)), rfl, rfl, ?_,
      fun k hk => ?_, by simp, fun r hr => ?_, duties, channels, targets, ?_⟩
    · exact (left m).trans (if_pos rfl)
    · exact (left k).trans (if_neg hk)
    · exact (latch_setLatch ..).trans ((if_neg hr).trans (latches r))
    · rw [collected]
      rfl
  · have set := noticeSet_eq_nil_of_no_member none
    refine ⟨_, (exec_noticeMemberRead hp).trans (congrArg _ (readNoticeMember_nil set)), by simp, fun r hr => ?_,
      rfl⟩
    exact (latch_setLatch ..).trans (if_neg hr)

/-! ## The two bytes of a 16-bit register (R177, R178) -/

section
variable {s : State}

theorem exec_lowByteRead (hp : s.phase = .running) (r : Reg16) : exec (.lowByteRead r) s = .next (s.readLow r) := by
  have row : s.readRunning (lowOffset r) = s.readLow r := by cases r <;> rfl
  exact congrArg Host.Outcome.next ((if_pos hp : s.windowRead (lowOffset r) = _).trans row)

theorem exec_highByteRead (hp : s.phase = .running) (r : Reg16) : exec (.highByteRead r) s = .next (s.readHigh r) := by
  have row : s.readRunning (lowOffset r + 1) = s.readHigh r := by cases r <;> rfl
  exact congrArg Host.Outcome.next ((if_pos hp : s.windowRead (lowOffset r + 1) = _).trans row)

theorem exec_lowByteWrite (hp : s.phase = .running) (w : WReg16) (v : Byte) :
    exec (.lowByteWrite w v) s = .next (s.setHold w (some v)) := by
  have row : s.writeRunning (lowOffset (holdRegister w)) v = s.setHold w (some v) := by cases w <;> rfl
  exact (windowWrite_of_running hp _).trans (congrArg _ row)

/-- A latched byte is answered as it was latched, and its latch empties (R177). -/
theorem readHigh_latched {r : Reg16} {b : Byte} (h : s.latch r = some b) :
    s.readHigh r = (s.answer b).setLatch r none := by
  unfold State.readHigh
  rw [h]

theorem readHigh_empty {r : Reg16} (h : s.latch r = none) : s.readHigh r = s.answer (highByte (s.half r)) := by
  unfold State.readHigh
  rw [h]

end

/-- Settles O31: by the read latch and the write hold of the register. -/
theorem sixteenBitAccessIsWhole : Obligations.SixteenBitAccessIsWhole := by
  intro s hp
  refine ⟨fun r => ?_, fun r empty => ?_, fun w v => ?_⟩
  · have latched : (s.readLow r).latch r = some (highByte (s.half r)) := by simp [State.readLow]
    refine ⟨s.readLow r, exec_lowByteRead hp r, rfl, latched, fun q hq => ?_, fun u hu same => ?_⟩
    · exact (latch_setLatch ..).trans (if_neg hq)
    · refine ⟨_, (exec_highByteRead hu r).trans (congrArg _ (readHigh_latched (same.trans latched))), rfl, by simp,
        fun q hq => ?_⟩
      exact (latch_setLatch ..).trans (if_neg hq)
  · exact (exec_highByteRead hp r).trans (congrArg _ (readHigh_empty empty))
  · exact ⟨_, exec_lowByteWrite hp w v, rfl, by simp, fun q hq => (hold_setHold ..).trans (if_neg hq)⟩

/-! ## The step (R176) -/

/-- Settles O1: a queue with a front command is the second row of the step. -/
theorem stepRunsTheFrontCommand : Obligations.StepRunsTheFrontCommand := by
  intro s c rest h
  unfold step
  rw [h]

end Sys2Proof.Machine
end

/-!
SUPPORT. Codes of CMD_CODE (R180, R181), SOFT_RESET at its moment (R183), the frame that it waits for (R48, R115, R128),
and its effects on the records, the bus engine and the quiet controller (R29, R101, R117, R161, R175).
-/

section
namespace Sys2Proof.Machine

open Sys2Proof

/-! ## Codes (R180, R181) -/

section
variable {s : State} {code : Byte}

/-- A code outside R180's table has no owner but the one that answers BAD_COMMAND. -/
theorem ownerOf_unknown (h : code ∉ commandCodes) : ownerOf code = State.ownBadCommand := by
  simp only [commandCodes, List.mem_cons, List.not_mem_nil, or_false, not_or] at h
  simp only [ownerOf, h, if_false]

theorem command_collides {owner : State → Reply} (hp : s.phase = .running) (hu : s.unit = .pending) :
    s.command code owner = { s with collisionCause := true } := by
  unfold State.command
  rw [if_neg (not_not.mpr hp), if_pos hu]

/-- Every command row is a write of its code to CMD_CODE. -/
theorem exec_of_command_row {c : Instr}
    (h : c ∈ [Instr.armDuty, .disarmDuty, .startChannel, .stopChannel, .triggerChannel, .targetOnline, .targetOffline,
      .submit, .flushHost, .quietEnter, .quietExit, .softReset]) :
    ∃ code owner, exec c s = .next (s.command code owner) := by
  simp only [List.mem_cons, List.not_mem_nil, or_false] at h
  rcases h with rfl | rfl | rfl | rfl | rfl | rfl | rfl | rfl | rfl | rfl | rfl | rfl <;> exact ⟨_, _, rfl⟩

end

/-! ## SOFT_RESET at its moment (R183; log entry 22) -/

section
variable {s : State}

theorem softReset_waits (h : ¬(s.frameOnBus = none ∧ s.broadcastOnBus = none)) : s.softReset = ⟨s, none⟩ :=
  if_pos (by
    rw [Bool.or_eq_true, Option.isSome_iff_ne_none, Option.isSome_iff_ne_none]
    exact not_and_or.mp h)

theorem softReset_at_once (h : s.frameOnBus = none ∧ s.broadcastOnBus = none) :
    s.softReset = ⟨s.softResetEffects, some .ok⟩ :=
  if_neg (by simp [h])

theorem quietBus_of_granted (h : s.engine = .granted) : s.frameOnBus = none ∧ s.broadcastOnBus = none := by
  simp [State.frameOnBus, State.broadcastOnBus, h]

/-- SOFT_RESET taken behind the first target check acts as the command does where the check has been made. -/
theorem exec_softReset_firstCheck (hp : s.phase = .running) (hu : s.unit = .ready) (he : s.engine = .granted)
    (behind : ¬Config.commandBeforeCheck s.freeCount) :
    exec .softReset s = exec .softReset { s with freeCount := s.freeCount + 1 }.firstCheck := by
  let b : State := { s with freeCount := s.freeCount + 1 }.firstCheck
  have phase : b.phase = .running := by rw [show b = _ from State.WorkMoves.firstCheck _]; exact hp
  have checked : { s with cmdCode := 0x7F }.atAccess = { b with cmdCode := 0x7F } := by
    rw [atAccess_of_granted (s := { s with cmdCode := 0x7F }) he]
    exact (if_neg behind).trans (firstCheck_cmdCode { s with freeCount := s.freeCount + 1 } 0x7F)
  have stands : { b with cmdCode := 0x7F }.atAccess = { b with cmdCode := 0x7F } :=
    atAccess_of_ne (s := { b with cmdCode := 0x7F }) (engine_firstCheck_ne _)
  have owner : State.ownSoftReset { s with cmdCode := 0x7F } = State.ownSoftReset { b with cmdCode := 0x7F } :=
    congrArg State.softReset (checked.trans stands.symm)
  show Host.Outcome.next (s.command 0x7F State.ownSoftReset) = .next (b.command 0x7F State.ownSoftReset)
  rw [command_taken hp hu, command_taken phase (unit_firstCheck hu), owner]

theorem softResetPending_iff (s : State) : s.softResetPending = true ↔ s.unit = .pending ∧ s.cmdCode = 0x7F := by
  simp [State.softResetPending]

/-- SOFT_RESET_EFFECTS finishes the command where the bus is quiet behind it (log entry 13). -/
theorem exec_softResetEffects (hu : s.unit = .pending) (hc : s.cmdCode = 0x7F)
    (hq : s.frameOnBus = none ∧ s.broadcastOnBus = none) : exec .softResetEffects s =
      .next { s.softResetEffects with unit := .ready, cmdResult := 0, commandDone := true }.settle :=
  if_pos ⟨(softResetPending_iff s).mpr ⟨hu, hc⟩, hq⟩

/-- Elsewhere the part does not raise it (log entry 3). -/
theorem exec_softResetEffects_elsewhere
    (h : ¬(s.frameOnBus = none ∧ s.broadcastOnBus = none) ∨ s.unit ≠ .pending ∨ s.cmdCode ≠ 0x7F) :
    exec .softResetEffects s = .next s :=
  if_neg fun ⟨pending, quiet⟩ => by
    obtain ⟨hu, hc⟩ := (softResetPending_iff s).mp pending
    rcases h with h | h | h
    · exact h quiet
    · exact h hu
    · exact h hc

end

/-! ## The frame that a SOFT_RESET waits for (R48, R115, R128) -/

section
variable {s : State} {a : Attempt} {c : Instr} {o : FrameOutcome} {data : List Sample}

/-- The end of the frame: the target table counts it, and its requester's rule waits for the effects. -/
theorem exec_frame_of_softReset (hs : s.softResetPending = true) (he : s.engine = .attempt a) (hc : a.endsBy c o data)
    (hl : a.last o) : exec c s = .next (((s.countOutcome a.frame.target a.frame.kind o).softOutcome a o
      data).completeOffline a.frame.target).settle := by
  rw [exec_of_endsBy he hc, attemptOver_eq_frameOutcome hl]
  unfold State.frameOutcome
  simp only [hs, if_true]

theorem softOutcome_of_request {r : Request} (hg : s.grant = some .host) (hi : s.inFlight = some r) :
    s.softOutcome a o data = { s.storeReceived a.frame o data with
      engine := .interGap 1
      softEnd := if o = .ok ∧ a.frame.kind = .sync then none else some (r.complete o a.count) } := by
  unfold State.softOutcome
  rw [hg, hi]
  rfl

/-- Work of another owner leaves no record to keep. -/
theorem softOutcome_of_other (hg : s.grant ≠ some .host) : s.softOutcome a o data =
    { s.storeReceived a.frame o data with engine := .interGap 1, softEnd := s.softEnd } := by
  have kept : (s.storeReceived a.frame o data).softEnd = s.softEnd := by rw [storeReceived_frame]
  rw [← kept]
  unfold State.softOutcome
  split
  · exact absurd ‹_› hg
  · rfl

theorem exec_interFrameGapEnd_of_softReset (hs : s.softResetPending = true) {k : Nat} (he : s.engine = .interGap k) :
    exec .interFrameGapEnd s = .next s := by
  show execInterFrameGapEnd s = _
  simp only [execInterFrameGapEnd, he, hs, if_true]
  rfl

theorem softCompletion_nil (h : s.inFlight = none) : s.softCompletion = [] := by
  unfold State.softCompletion
  rw [h]

theorem softCompletion_some {r : Request} (h : s.inFlight = some r) :
    s.softCompletion = [s.softEnd.getD (r.without .flushed)] := by
  unfold State.softCompletion
  rw [h]

end

/-! ## The effects (R29, R101, R117, R161, R175) -/

section
variable {s : State}

theorem DutyRec.notices_softReset (d : DutyRec) : d.softReset.notices = 0 := by
  show flagBit false 0 ||| flagBit false 1 ||| flagBit false 2 ||| flagBit false 3 = 0
  decide

theorem ChannelRec.notices_softReset (r : ChannelRec) : r.softReset.notices = 0 := r.notices_clearNotices

theorem noticeSet_softResetEffects (s : State) : s.softResetEffects.noticeSet = [] :=
  noticeSet_eq_nil (fun k => by rw [target_softResetEffects, TargetRec.notices_clearNotices])
    (fun c => by rw [channel_softResetEffects, ChannelRec.notices_softReset])
    (fun n => by rw [duty_softResetEffects, DutyRec.notices_softReset])

/-- NOTICE is absent while the notice set is empty (R184, R186). -/
theorem noticePresent_of_nil (h : s.noticeSet = []) : s.noticePresent = false := by
  refine Bool.eq_false_iff.mpr fun present => ?_
  obtain ⟨m, hm, causes⟩ := (noticePresent_iff s).mp present
  exact List.filter_eq_nil_iff.mp h m (List.mem_range.mpr hm) (bne_iff_ne.mpr causes)

theorem completionPresent_eq (s : State) : s.completionPresent = decide (s.completions ≠ []) :=
  Bool.eq_iff_iff.mpr ((completionPresent_iff s).trans decide_eq_true_iff.symm)

/-- With no notice and no sticky cause, COMPLETION alone may stand (R186). -/
theorem intCause_of_completions (hn : s.noticeSet = []) (hd : s.commandDone = false) (hb : s.busStateCause = false)
    (hg : s.guardCause = false) (hc : s.collisionCause = false) (hr : s.readyCause = false) :
    s.intCause = if s.completions = [] then 0x0000 else 0x0002 := by
  rw [State.intCause, noticePresent_of_nil hn, completionPresent_eq, hd, hb, hg, hc, hr]
  by_cases h : s.completions = []
  · rw [if_pos h, h]
    decide
  · rw [if_neg h, decide_eq_true h]
    decide

/-- What the effects leave: the records, the bus engine and the quiet controller take their own, and the queues end with
every request completed as FLUSHED behind the one in flight (R115, R183). -/
theorem softResetEffects_keeps (s : State) :
    let u := s.softResetEffects
    u = { s with
      duties := u.duties, channels := u.channels, targets := u.targets, dueQueue := [], channelPointer := 15
      requests := [], inFlight := none, softEnd := none, grant := none, hostWait := 0
      completions := s.completions ++ s.softCompletion ++ s.requests.map (fun r => ⟨r.tag, .flushed, 0, 0⟩)
      engine := u.engine, busState := u.busState, purpose := u.purpose
      commandDone := false, busStateCause := false, guardCause := false, collisionCause := false
      readyCause := false } := by
  obtain ⟨_, _, _, frame⟩ := softResetEffects_frame s
  intro u
  have flushed : s.requests.map (fun r => (⟨r.tag, .flushed, 0, 0⟩ : Completion)) =
      s.requests.map (fun r => r.without .flushed) := rfl
  have eq : u = _ := frame
  rw [flushed, eq]

/-- The bus engine's part: the work between frames ends, and the gap follows (R117, R128). -/
theorem engine_softResetBus_between (h : s.engine = .granted ∨ ∃ k, s.engine = .interGap k) :
    s.softResetBus.engine = .gap := by
  unfold State.softResetBus
  rcases h with h | ⟨k, h⟩ <;> rw [h] <;> rfl

theorem engine_softResetBus_elsewhere (hg : s.engine ≠ .granted) (hi : ∀ k, s.engine ≠ .interGap k) :
    s.softResetBus.engine = s.engine := by
  unfold State.softResetBus
  split
  · exact absurd ‹_› (hi _)
  · exact absurd ‹_› hg
  · rfl

/-- The bus state and the purpose after the effects are those that the quiet controller's part gives (R175). -/
theorem bus_softResetEffects (s : State) :
    s.softResetEffects.busState = s.softResetQuiet.busState ∧
      s.softResetEffects.purpose = s.softResetQuiet.purpose := by
  let u : State := s.softResetRecords.softResetBus
  have bus : u.busState = s.busState ∧ u.purpose = s.purpose := by
    simp only [u]
    rw [softResetBus_frame, softResetRecords_frame, softResetRequests_eq]
    exact ⟨rfl, rfl⟩
  obtain ⟨state, purpose⟩ := bus
  rw [softResetEffects_eq]
  show u.softResetQuiet.busState = _ ∧ u.softResetQuiet.purpose = _
  unfold State.softResetQuiet
  rw [state]
  cases s.busState <;> simp [state, purpose]

theorem softResetQuiet_active (h : s.busState = .active) : s.softResetQuiet = s := by
  rw [State.softResetQuiet, h]

theorem softResetQuiet_under_way (h : s.busState = .draining ∨ s.busState = .excursion) :
    s.softResetQuiet = { s with busState := .active, purpose := .none } := by
  rcases h with h | h <;> rw [State.softResetQuiet, h]

theorem softResetQuiet_asleep (h : s.busState = .quiet ∨ s.busState = .waking) :
    s.softResetQuiet = { s with busState := .waking, purpose := .exit } := by
  rcases h with h | h <;> rw [State.softResetQuiet, h]

end

end Sys2Proof.Machine
end

/-!
PROOF. The command unit apart from single commands: unknown and colliding codes (R180, R181), and SOFT_RESET with its
effects (R183).
-/

section
namespace Sys2Proof.Machine

open Sys2Proof

/-- Settles O28: an unknown code is answered by BAD_COMMAND's owner, and a PENDING unit hands no code over. -/
theorem unknownAndCollidingCodes : Obligations.UnknownAndCollidingCodes := by
  intro s hp
  refine ⟨fun code unknown hu => ?_, fun hu code c row => ?_⟩
  · have owner : ownerOf code { s with cmdCode := code } = ⟨{ s with cmdCode := code }, some .badCommand⟩ :=
      congrFun (ownerOf_unknown unknown) _
    have answered : exec (.badCommand code) s =
        .next { ({ s with cmdCode := code } : State) with cmdResult := 1, commandDone := true }.settle :=
      command_answered (x := .badCommand) hp hu owner
    exact answered
  · have write : ∃ code owner, exec c s = .next (s.command code owner) := by
      rcases row with rfl | row
      · exact ⟨code, ownerOf code, rfl⟩
      · exact exec_of_command_row row
    obtain ⟨_, _, e⟩ := write
    rw [e, command_collides hp hu]

/-- Settles O26: by what is on the bus, and behind a grant decision by the free value. -/
theorem softResetWaitsForTheBus : Obligations.SoftResetWaitsForTheBus := by
  intro s quietBus
  let w : State := { s with cmdCode := 0x7F }
  have taken {t : State} (v : State) (hp : s.phase = .running) (hu : s.unit = .ready) (ha : w.atAccess = v)
      (h : v.softReset = ⟨t, some .ok⟩) :
      exec .softReset s = .next { t with cmdResult := 0, commandDone := true }.settle :=
    command_answered (x := .ok) hp hu ((congrArg State.softReset ha).trans h)
  refine ⟨fun hp hu busy => ?_, fun hp hu hg quiet => ?_, fun hp hu hg => ?_, exec_softResetEffects,
    exec_softResetEffects_elsewhere, fun hu hc a c o data he hends last => ?_, fun hu hc k he => ?_, softCompletion_nil,
    fun r => softCompletion_some⟩
  · have ungranted : w.engine ≠ .granted := fun h => busy (quietBus_of_granted (s := s) h)
    have waits : exec .softReset s = .next { w with unit := .pending, cmdResult := 0xFF }.settle :=
      command_waits hp hu ((congrArg State.softReset (atAccess_of_ne ungranted)).trans (softReset_waits (s := w) busy))
    exact waits
  · exact taken w hp hu (atAccess_of_ne (s := w) hg) (softReset_at_once (s := w) quiet)
  · split
    · rename_i before
      let b : State := { w with freeCount := s.freeCount + 1 }
      have beside : w.atAccess = b := (atAccess_of_granted (s := w) hg).trans (if_pos before)
      exact taken b hp hu beside (softReset_at_once (s := b) (quietBus_of_granted (s := b) hg))
    · rename_i behind
      exact exec_softReset_firstCheck hp hu hg behind
  · intro u ends
    have ended := exec_frame_of_softReset ((softResetPending_iff s).mpr ⟨hu, hc⟩) he hends last
    refine ⟨fun hg => ?_, fun r hg hi => ⟨fun sync => ?_, fun failed => ?_⟩⟩
    · rw [softOutcome_of_other (s := s.countOutcome ..) hg] at ended
      exact ended
    · rw [softOutcome_of_request (s := s.countOutcome ..) hg hi, if_pos sync] at ended
      exact ended
    · rw [softOutcome_of_request (s := s.countOutcome ..) hg hi, if_neg failed] at ended
      exact ended
  · exact exec_interFrameGapEnd_of_softReset ((softResetPending_iff s).mpr ⟨hu, hc⟩) he

/-- Settles O27: each block's part of the effects, and the frame of them all. -/
theorem softResetEffectsOfEveryBlock : Obligations.SoftResetEffectsOfEveryBlock := by
  intro s u
  have frame : u = _ := softResetEffects_keeps s
  have engine : u.engine = s.softResetRecords.softResetBus.engine := engine_softResetEffects s
  have bus := engine_softResetRecords s
  obtain ⟨busState, purpose⟩ := bus_softResetEffects s
  refine ⟨duty_softResetEffects s, channel_softResetEffects s, target_softResetEffects s, frame,
    noticeSet_softResetEffects s, congrArg (8 - ·) (slotsHeld_softResetEffects s), ?_, fun h => ?_, fun hg hi => ?_,
    fun h => ?_, fun h => ?_, fun h => ?_⟩
  · exact intCause_of_completions (noticeSet_softResetEffects s) (by rw [frame]) (by rw [frame]) (by rw [frame])
      (by rw [frame]) (by rw [frame])
  · rw [engine]
    exact engine_softResetBus_between (by rwa [bus])
  · rw [engine, engine_softResetBus_elsewhere (by rwa [bus]) (by rwa [bus]), bus]
  · rw [busState, purpose, softResetQuiet_active h]
    exact ⟨h, rfl⟩
  · rw [busState, purpose, softResetQuiet_under_way h]
    exact ⟨rfl, rfl⟩
  · rw [busState, purpose, softResetQuiet_asleep h]
    exact ⟨rfl, rfl⟩

end Sys2Proof.Machine
end

/-!
SUPPORT. The queue of waiting commands. Only a step takes from it (log entry 4): each operation that a command's meaning
calls leaves it as it stands, and `f_pending` says so for the operation `f`, in the order of the model's files.
-/

section
namespace Sys2Proof.Machine

open Sys2Proof

/-! ## The end of an event -/

/-- The queue is no part of the work. -/
theorem State.WorkMoves.pending {s t : State} (h : s.WorkMoves t) : t.pending = s.pending := by
  rw [h]
  rfl

@[simp] theorem startWork_pending (s : State) : s.startWork.pending = s.pending := (State.WorkMoves.startWork s).pending

@[simp] theorem firstCheck_pending (s : State) : s.firstCheck.pending = s.pending :=
  (State.WorkMoves.firstCheck s).pending

@[simp] theorem unitEnd_pending (s : State) (c : Fin 16) (failure : Condition) :
    (s.unitEnd c failure).pending = s.pending := (State.WorkMoves.unitEnd s c failure).pending

@[simp] theorem runFailed_pending (s : State) (n : Fin 32) (cause : Condition) (position : Nat) :
    (s.runFailed n cause position).pending = s.pending := (State.WorkMoves.runFailed s n cause position).pending

@[simp] theorem react_pending (s : State) : s.react.pending = s.pending :=
  State.WorkMoves.pending (settleChangesWorkOnly s).2

@[simp] theorem settle_pending (s : State) : s.settle.pending = s.pending := (State.WorkMoves.settle s).pending

/-! ## The outcome of a frame -/

@[simp] theorem runSucceeded_pending (s : State) (n : Fin 32) : (s.runSucceeded n).pending = s.pending := by
  rw [runSucceeded_frame]

@[simp] theorem storeReceived_pending (s : State) (f : Frame) (o : FrameOutcome) (data : List Sample) :
    (s.storeReceived f o data).pending = s.pending := by
  rw [storeReceived_frame]

@[simp] theorem transactionComplete_pending (s : State) (n : Fin 32) (position : Nat) :
    (s.transactionComplete n position).pending = s.pending := by
  unfold State.transactionComplete
  split
  · exact runSucceeded_pending s n
  · rfl

@[simp] theorem dutyFrameEnd_pending (s : State) (n : Fin 32) (position : Nat) (f : Frame) (o : FrameOutcome)
    (data : List Sample) : (s.dutyFrameEnd n position f o data).pending = s.pending := by
  unfold State.dutyFrameEnd
  simp only
  split_ifs
  · exact runFailed_pending ..
  · rfl
  · exact runFailed_pending ..
  · exact transactionComplete_pending ..

@[simp] theorem channelFrameEnd_pending (s : State) (c : Fin 16) (acknowledge : Bool) (f : Frame) (o : FrameOutcome) :
    (s.channelFrameEnd c acknowledge f o).pending = s.pending := by
  unfold State.channelFrameEnd
  split_ifs
  · exact unitEnd_pending ..
  · rfl
  · rfl
  · exact unitEnd_pending ..

@[simp] theorem requestFrameEnd_pending (s : State) (r : Request) (f : Frame) (o : FrameOutcome) (attempts : Nat) :
    (s.requestFrameEnd r f o attempts).pending = s.pending := by
  unfold State.requestFrameEnd
  split <;> rfl

/-- Whoever holds the grant, the requester's rule at an outcome leaves the queue. -/
@[simp] theorem requesterOutcome_pending (s : State) (a : Attempt) (o : FrameOutcome) (data : List Sample) :
    (s.requesterOutcome a o data).pending = s.pending := by
  have stored := storeReceived_pending s a.frame o data
  unfold State.requesterOutcome
  simp only
  split
  · split
    · exact stored
    · exact (dutyFrameEnd_pending ..).trans stored
  · exact (channelFrameEnd_pending ..).trans stored
  · exact (requestFrameEnd_pending ..).trans stored
  · exact stored

@[simp] theorem softOutcome_pending (s : State) (a : Attempt) (o : FrameOutcome) (data : List Sample) :
    (s.softOutcome a o data).pending = s.pending := by
  have stored := storeReceived_pending s a.frame o data
  unfold State.softOutcome
  simp only
  split <;> exact stored

@[simp] theorem completeOffline_pending (s : State) (t : Fin 16) : (s.completeOffline t).pending = s.pending := by
  rcases completeOffline_cases s t with ⟨_, e⟩ | ⟨_, e⟩ <;> rw [e]
  rfl

@[simp] theorem frameOutcome_pending (s : State) (a : Attempt) (o : FrameOutcome) (data : List Sample) :
    (s.frameOutcome a o data).pending = s.pending := by
  unfold State.frameOutcome
  split <;> simp

@[simp] theorem attemptOver_pending (s : State) (a : Attempt) (o : FrameOutcome) (data : List Sample) :
    (s.attemptOver a o data).pending = s.pending := by
  rcases attemptOver_cases s a o data with ⟨_, _, e⟩ | ⟨_, e⟩ <;> rw [e]
  exact frameOutcome_pending s a o data

@[simp] theorem continueGrant_pending (s : State) : s.continueGrant.pending = s.pending := by
  unfold State.continueGrant
  split
  · split
    · rfl
    · exact startWork_pending s
  · exact startWork_pending s

/-! ## Time, triggers and the quiet controller -/

@[simp] theorem passMarks_pending (s : State) (k : Nat) : (s.passMarks k).pending = s.pending := by
  rw [passMarks_frame]

@[simp] theorem endWait_pending (s : State) : s.endWait.pending = s.pending := by
  rw [endWait_frame]

@[simp] theorem endWaitIfOver_pending (s : State) : s.endWaitIfOver.pending = s.pending := by
  unfold State.endWaitIfOver
  split
  · exact endWait_pending s
  · rfl

@[simp] theorem mark_pending (s : State) : s.mark.pending = s.pending := by simp [State.mark]

@[simp] theorem endWakeWait_pending (s : State) : s.endWakeWait.pending = s.pending := by simp [State.endWakeWait]

@[simp] theorem passToTick_pending (s : State) : s.passToTick.pending = s.pending := by
  rcases passToTick_cases s with ⟨_, e⟩ | ⟨_, _, e⟩ <;> simp [e]

@[simp] theorem takeTick_pending (s : State) : s.takeTick.pending = s.pending := by
  show (if s.ticksDue = 0 then s.passToTick else s).pending = s.pending
  split
  · exact passToTick_pending s
  · rfl

@[simp] theorem upkeepTick_pending (s : State) : s.upkeepTick.pending = s.pending := by
  rw [upkeepTick_frame]

@[simp] theorem expireDuty_pending (s : State) (n : Fin 32) : (s.expireDuty n).pending = s.pending := by
  rw [expireDuty_frame]

@[simp] theorem takeArrival_pending (s : State) (c : Fin 16) : (s.takeArrival c).pending = s.pending := by
  rw [State.takeArrival, react_pending]
  rfl

/-- However many channels take the arrival of an edge, the queue stands. -/
theorem foldl_takeArrival_pending (l : List (Fin 16)) (s : State) :
    (l.foldl State.takeArrival s).pending = s.pending := by
  induction l generalizing s with
  | nil => rfl
  | cons c l ih => rw [List.foldl_cons, ih, takeArrival_pending]

@[simp] theorem edgeArrivals_pending (s : State) (k : Fin 8) : (s.edgeArrivals k).pending = s.pending := by
  rw [State.edgeArrivals, foldl_takeArrival_pending, settle_pending]

@[simp] theorem markStale_pending (s : State) : s.markStale.pending = s.pending := by
  rw [markStale_frame]

@[simp] theorem quietBroadcastEnd_pending (s : State) : s.quietBroadcastEnd.pending = s.pending := by
  unfold State.quietBroadcastEnd
  simp only
  split
  · simp
  · rfl

/-! ## Resets -/

@[simp] theorem softResetEffects_pending (s : State) : s.softResetEffects.pending = s.pending := by
  obtain ⟨_, _, _, e⟩ := softResetEffects_frame s
  rw [e]

/-- A full reset keeps the commands that wait, which are the model's own and no register. -/
@[simp] theorem fullReset_pending (s : State) : s.fullReset.pending = s.pending := by
  rw [fullReset_frame]

/-! ## Commands -/

/-- What the owner of a command does leaves the queue. -/
def KeepsQueue (owner : State → Reply) : Prop := ∀ s, (owner s).state.pending = s.pending

@[simp] theorem besideCheck_pending (s : State) : s.besideCheck.pending = s.pending := by
  rcases besideCheck_cases s with e | e <;> simp [e]

@[simp] theorem atAccess_pending (s : State) : s.atAccess.pending = s.pending := by
  rcases atAccess_cases s with ⟨_, e⟩ | ⟨_, e⟩ <;> simp [e]

@[simp] theorem atOffline_pending (s : State) : s.atOffline.pending = s.pending := by
  rcases atOffline_cases s with ⟨_, e⟩ | ⟨_, _, _, e⟩ <;> simp [e]

theorem keepsQueue_armDuty : KeepsQueue State.ownArmDuty := fun s => by
  unfold State.ownArmDuty
  simp only
  split_ifs <;> rfl

theorem keepsQueue_disarmDuty : KeepsQueue State.ownDisarmDuty := fun s => by
  have disarm (u : State) : u.disarmDuty.state.pending = u.pending := by
    unfold State.disarmDuty
    simp only
    split
    · rfl
    · cases (u.duty (dutyIndex u.cmdOperand)).state with
      | running => simp only; split <;> rfl
      | idle | armed | due | faulted => rfl
  exact (disarm _).trans (firstCheck_pending s)

theorem keepsQueue_startChannel : KeepsQueue State.ownStartChannel := fun s => by
  unfold State.ownStartChannel
  simp only
  split_ifs <;> rfl

theorem keepsQueue_stopChannel : KeepsQueue State.ownStopChannel := fun s => by
  unfold State.ownStopChannel
  simp only
  split
  · rfl
  · split <;> rfl

theorem keepsQueue_triggerChannel : KeepsQueue State.ownTriggerChannel := fun s => by
  unfold State.ownTriggerChannel
  simp only
  split <;> rfl

theorem keepsQueue_targetOnline : KeepsQueue State.ownTargetOnline := fun s => by
  unfold State.ownTargetOnline
  simp only
  split_ifs <;> rfl

theorem keepsQueue_targetOffline : KeepsQueue State.ownTargetOffline := fun s => by
  have offline (u : State) : u.targetOffline.state.pending = u.pending := by
    unfold State.targetOffline
    simp only
    split
    · rfl
    · cases (u.target (sixteenIndex u.cmdOperand)).state with
      | online => simp only; split <;> rfl
      | offline | quarantined => rfl
  exact (offline _).trans (atOffline_pending s)

theorem keepsQueue_submit : KeepsQueue State.ownSubmit := fun s => by
  unfold State.ownSubmit
  split_ifs <;> rfl

theorem keepsQueue_flushHost : KeepsQueue State.ownFlushHost := fun _ => rfl

theorem keepsQueue_quietEnter : KeepsQueue State.ownQuietEnter := fun s => by
  unfold State.ownQuietEnter
  split <;> rfl

theorem keepsQueue_exitBehindBroadcast : KeepsQueue State.exitBehindBroadcast := fun s => by
  unfold State.exitBehindBroadcast
  split <;> rfl

theorem keepsQueue_quietExit : KeepsQueue State.ownQuietExit := fun s => by
  have behind := keepsQueue_exitBehindBroadcast s
  unfold State.ownQuietExit
  simp only
  split
  · rfl
  · split
    · exact behind
    · rfl
  · simp
  · split
    · rfl
    · simp
  · split
    · exact behind
    · simp

theorem keepsQueue_softReset : KeepsQueue State.ownSoftReset := fun s => by
  have reset (u : State) : u.softReset.state.pending = u.pending := by
    unfold State.softReset
    split
    · rfl
    · exact softResetEffects_pending u
  exact (reset _).trans (atAccess_pending s)

theorem keepsQueue_ite {c : Prop} [Decidable c] {f g : State → Reply} (hf : KeepsQueue f) (hg : KeepsQueue g) :
    KeepsQueue (if c then f else g) := by
  split
  · exact hf
  · exact hg

/-- The owner of any code leaves the queue, in the order of R180's table. -/
theorem keepsQueue_ownerOf (code : Byte) : KeepsQueue (ownerOf code) :=
  keepsQueue_ite keepsQueue_armDuty <|
  keepsQueue_ite keepsQueue_disarmDuty <|
  keepsQueue_ite keepsQueue_startChannel <|
  keepsQueue_ite keepsQueue_stopChannel <|
  keepsQueue_ite keepsQueue_triggerChannel <|
  keepsQueue_ite keepsQueue_targetOnline <|
  keepsQueue_ite keepsQueue_targetOffline <|
  keepsQueue_ite keepsQueue_submit <|
  keepsQueue_ite keepsQueue_flushHost <|
  keepsQueue_ite keepsQueue_quietEnter <|
  keepsQueue_ite keepsQueue_quietExit <|
  keepsQueue_ite keepsQueue_softReset fun _ => rfl

@[simp] theorem conclude_pending (r : Reply) : r.conclude.pending = r.state.pending := by
  rcases conclude_cases r with ⟨_, _, e⟩ | ⟨_, e⟩ <;> rw [e]

/-- A command is ignored, collides, or is taken by its owner and concluded, by all of which the queue stands. -/
theorem command_pending {owner : State → Reply} (h : KeepsQueue owner) (s : State) (code : Byte) :
    (s.command code owner).pending = s.pending := by
  rcases command_cases s code owner with ⟨_, e⟩ | ⟨_, _, e⟩ | ⟨_, _, e⟩ <;> rw [e]
  calc (owner { s with cmdCode := code }).conclude.settle.pending
      _ = (owner { s with cmdCode := code }).conclude.pending := settle_pending _
      _ = (owner { s with cmdCode := code }).state.pending := conclude_pending _
      _ = s.pending := h { s with cmdCode := code }

@[simp] theorem writeCommand_pending (s : State) (code : Byte) : (s.writeCommand code).pending = s.pending :=
  command_pending (keepsQueue_ownerOf code) s code

/-! ## The window -/

@[simp] theorem readHigh_pending (s : State) (r : Reg16) : (s.readHigh r).pending = s.pending := by
  unfold State.readHigh
  split <;> rfl

@[simp] theorem collectMember_pending (s : State) (m : Nat) : (s.collectMember m).pending = s.pending := by
  rw [collectMember_frame]

@[simp] theorem readNoticeMember_pending (s : State) : s.readNoticeMember.pending = s.pending := by
  unfold State.readNoticeMember
  split
  · rfl
  · exact collectMember_pending s _

/-- A read of any offset leaves the queue: most rows only drive the data lines. -/
theorem windowRead_pending (s : State) (off : BitVec 6) : (s.windowRead off).pending = s.pending := by
  unfold State.windowRead State.readRunning State.readInReset
  split
  · split <;> simp [State.readLow, State.readTableData]
  · split <;> rfl

@[simp] theorem offer_pending (s : State) (w : WReg16) (v : Half) : (s.offer w v).pending = s.pending := by
  cases w with
  | tickPeriod | wakeUs => simp only [State.offer]; split <;> rfl
  | tmPtr | intCause | intEnable | lineEdge => rfl

@[simp] theorem putHostByte_pending (s : State) (a : BitVec 13) (v : Byte) :
    (s.putHostByte a v).pending = s.pending := by
  rw [putHostByte_frame]

@[simp] theorem raceWrite_pending (s : State) (a : Nat) (v : Byte) : (s.raceWrite a v).pending = s.pending := by
  rw [raceWrite_frame]

/-- Taken or discarded by record protection, a byte written through TM_DATA leaves the queue. -/
@[simp] theorem writeTableData_pending (s : State) (v : Byte) : (s.writeTableData v).pending = s.pending := by
  unfold State.writeTableData
  simp only
  split
  · simp
  · exact firstCheck_pending s

@[simp] theorem writeClock_pending (s : State) (v : Byte) : (s.writeClock v).pending = s.pending := by
  unfold State.writeClock
  split <;> rfl

@[simp] theorem writeBusDiv_pending (s : State) (v : Byte) : (s.writeBusDiv v).pending = s.pending := by
  unfold State.writeBusDiv
  split
  · exact atAccess_pending s
  · rfl

/-- A write of any offset leaves the queue, a command's write of CMD_CODE among them. -/
theorem windowWrite_pending (s : State) (off : BitVec 6) (v : Byte) : (s.windowWrite off v).pending = s.pending := by
  unfold State.windowWrite State.writeRunning
  split
  · split <;> simp [State.writeLow, State.writeHigh, State.writeStaging, State.popCompletion, State.writePullin]
  · rfl

/-! ## Every row -/

/-- A row taken where its guard holds leaves the queue if what it does there leaves it. -/
theorem guarded_pending {s u : State} {c : Prop} [Decidable c] (hu : u.pending = s.pending) :
    ∃ t, (if c then .next u else noEvent s) = (Host.Outcome.next t : Host.Outcome State Fault Refusal) ∧
      t.pending = s.pending := by
  split
  · exact ⟨u, rfl, hu⟩
  · exact ⟨s, rfl, rfl⟩

theorem execAttemptEnd_pending (s : State) (status : Sample) (data : List Sample) :
    ∃ t, execAttemptEnd status data s = .next t ∧ t.pending = s.pending := by
  unfold execAttemptEnd
  simp only
  split
  · exact ⟨_, rfl, by simp⟩
  · exact ⟨_, rfl, firstCheck_pending s⟩

theorem execReadyTimeout_pending (s : State) : ∃ t, execReadyTimeout s = .next t ∧ t.pending = s.pending := by
  unfold execReadyTimeout
  simp only
  split
  · split
    · exact ⟨_, rfl, by simp⟩
    · exact ⟨_, rfl, firstCheck_pending s⟩
  · exact ⟨_, rfl, firstCheck_pending s⟩

theorem execInterFrameGapEnd_pending (s : State) :
    ∃ t, execInterFrameGapEnd s = .next t ∧ t.pending = s.pending := by
  unfold execInterFrameGapEnd
  split
  · split
    · exact ⟨s, rfl, rfl⟩
    · exact ⟨_, rfl, by simp⟩
  · exact ⟨s, rfl, rfl⟩

theorem execRetryGapEnd_pending (s : State) : ∃ t, execRetryGapEnd s = .next t ∧ t.pending = s.pending := by
  unfold execRetryGapEnd
  split <;> exact ⟨_, rfl, rfl⟩

theorem execRunCut_pending (s : State) : ∃ t, execRunCut s = .next t ∧ t.pending = s.pending := by
  unfold execRunCut
  split
  · exact ⟨_, rfl, settle_pending _⟩
  · exact ⟨s, rfl, rfl⟩

theorem execTriggerLineEdge_pending (s : State) (k : Fin 8) (level : Bool) :
    ∃ t, execTriggerLineEdge k level s = .next t ∧ t.pending = s.pending := by
  refine guarded_pending ?_
  split
  · exact edgeArrivals_pending ..
  · exact settle_pending _

/-- Settles O2: by the row, each of which answers with a next state that what the row calls has left its queue. -/
theorem everyCommandEndsAndKeepsTheQueue : Obligations.EveryCommandEndsAndKeepsTheQueue := by
  intro c s
  cases c with
  -- reset
  | fullReset => exact ⟨_, rfl, fullReset_pending s⟩
  | resetRelease | clearEnd _ | resetBroadcast | resetBroadcastEnd => exact guarded_pending rfl
  | softResetEffects => exact guarded_pending ((settle_pending _).trans (softResetEffects_pending s))
  -- time and triggers
  | microsecondMark => exact guarded_pending (mark_pending s)
  | tick => exact guarded_pending (by simp)
  | expiry n => exact guarded_pending ((settle_pending _).trans (expireDuty_pending s n))
  | triggerLineEdge k level => exact execTriggerLineEdge_pending s k level
  -- commands
  | armDuty => exact ⟨_, rfl, command_pending keepsQueue_armDuty s _⟩
  | disarmDuty => exact ⟨_, rfl, command_pending keepsQueue_disarmDuty s _⟩
  | startChannel => exact ⟨_, rfl, command_pending keepsQueue_startChannel s _⟩
  | stopChannel => exact ⟨_, rfl, command_pending keepsQueue_stopChannel s _⟩
  | triggerChannel => exact ⟨_, rfl, command_pending keepsQueue_triggerChannel s _⟩
  | targetOnline => exact ⟨_, rfl, command_pending keepsQueue_targetOnline s _⟩
  | targetOffline => exact ⟨_, rfl, command_pending keepsQueue_targetOffline s _⟩
  | submit => exact ⟨_, rfl, command_pending keepsQueue_submit s _⟩
  | flushHost => exact ⟨_, rfl, command_pending keepsQueue_flushHost s _⟩
  | quietEnter => exact ⟨_, rfl, command_pending keepsQueue_quietEnter s _⟩
  | quietExit => exact ⟨_, rfl, command_pending keepsQueue_quietExit s _⟩
  | softReset => exact ⟨_, rfl, command_pending keepsQueue_softReset s _⟩
  | badCommand code | collision code => exact ⟨_, rfl, writeCommand_pending s code⟩
  -- the window
  | accessDuringClear access =>
    cases access with
    | read off => exact ⟨_, rfl, windowRead_pending s off⟩
    | write off v => exact ⟨_, rfl, windowWrite_pending s off v⟩
  | tmDataRead | noticeMemberRead | lowByteRead _ | highByteRead _ => exact ⟨_, rfl, windowRead_pending s _⟩
  | tmPtrWrite v | tmDataWrite v | cplPop v | intCauseWrite v | intEnableWrite v | clockMhzWrite v | tickPeriodWrite v
  | wakeUsWrite v | busDivWrite v | pullinWrite v | lineEdgeWrite v | lowByteWrite _ v | registerWrite _ v =>
    exact ⟨_, rfl, windowWrite_pending s _ v⟩
  -- the bus and the quiet controller
  | gapEnd => exact guarded_pending (settle_pending _)
  | interFrameGapEnd => exact execInterFrameGapEnd_pending s
  | readyTimeout => exact execReadyTimeout_pending s
  | attemptEnd status data => exact execAttemptEnd_pending s status data
  | retryGapEnd => exact execRetryGapEnd_pending s
  | runCut => exact execRunCut_pending s
  | quietBroadcastEnd => exact guarded_pending ((settle_pending _).trans (quietBroadcastEnd_pending s))
  | wakeBroadcastEnd => exact guarded_pending rfl
  | wakeWaitEnd => exact guarded_pending ((settle_pending _).trans (endWakeWait_pending s))

end Sys2Proof.Machine
end
